-- ==== Sys2Proof/Word.lean ====
section
/-! DEFINITION. The word types of the core: every register value and memory byte is an unsigned integer of a
fixed width (00_scope.md R16). -/

namespace Sys2Proof

/-- A memory byte, a general register, a timer (R16, R20, R30). -/
abbrev Byte := BitVec 8

/-- PC, I, a stack entry, an opcode (R23, R25, R28, R70). -/
abbrev Word := BitVec 16

/-- The 4-bit field `n` of an opcode (R71) and a key code 0..15 (R37). -/
abbrev Nibble := BitVec 4

/-- The 12-bit immediate address `nnn` (R71). -/
abbrev Addr := BitVec 12

/-- The number of a general register, the 4-bit fields x and y (R20, R71). -/
abbrev Reg := Fin 16

/-- VF, that is V[15] (R17, R21). -/
abbrev regVF : Reg := 15

/-- V0, the implicit operand of Bnnn (R73). -/
abbrev regV0 : Reg := 0

/-- A timestamp in milliseconds, an exact rational (R261, decision D22). -/
abbrev Millis := Rat

end Sys2Proof
end

