-- ==== Sys2Proof/Config.lean ====
section
/-! DEFINITION. What an implementation fixes: the numbered parameters of 00_scope.md (R6 to R15) and the one free
value, the random generator (R13). -/

namespace Sys2Proof

/-- `MEM_SIZE` (R6). -/
abbrev Config.memSize : Nat := 4096

/-- `ROM_BASE`, where a ROM is loaded and where PC starts (R7). -/
abbrev Config.romBase : Nat := 0x200

/-- `MAX_ROM = MEM_SIZE - ROM_BASE` (R7). -/
abbrev Config.maxRom : Nat := Config.memSize - Config.romBase

/-- `GLYPH_BYTES` (R8). -/
abbrev Config.glyphBytes : Nat := 5

/-- The font's size, `NUM_GLYPHS * GLYPH_BYTES`, from FONT_BASE = 0 (R8). -/
abbrev Config.fontSize : Nat := 80

/-- `STACK_DEPTH` (R9). -/
abbrev Config.stackDepth : Nat := 16

/-- `DISP_W`, the columns (R10). -/
abbrev Config.dispW : Nat := 64

/-- `DISP_H`, the rows (R10). -/
abbrev Config.dispH : Nat := 32

/-- The spec's identity string (R2, decision D27). -/
def Config.identity : String := "c8-core/base35"

/-- `RngState`, the type the spec leaves open (R13). DESIGN CHOICE, log entry 6: a natural number. -/
abbrev RngState := Nat

/-- `rng_next` (R13): the drawn byte and the generator's next state. A FREE VALUE (log entry 6): the spec gives no
algorithm, so it has no body and every claim holds for every generator. -/
opaque Config.rngNext : RngState → Byte × RngState

/-- The default of the parameter FONT: glyph d at 5d..5d+4 (R53). PRESUMED, log entry 5: the source gives no byte of it. -/
def Config.defaultFont : Vector Byte 80 := #v[
  0xF0, 0x90, 0x90, 0x90, 0xF0,
  0x20, 0x60, 0x20, 0x20, 0x70,
  0xF0, 0x10, 0xF0, 0x80, 0xF0,
  0xF0, 0x10, 0xF0, 0x10, 0xF0,
  0x90, 0x90, 0xF0, 0x10, 0x10,
  0xF0, 0x80, 0xF0, 0x10, 0xF0,
  0xF0, 0x80, 0xF0, 0x90, 0xF0,
  0xF0, 0x10, 0x20, 0x40, 0x40,
  0xF0, 0x90, 0xF0, 0x90, 0xF0,
  0xF0, 0x90, 0xF0, 0x10, 0xF0,
  0xF0, 0x90, 0xF0, 0x90, 0x90,
  0xE0, 0x90, 0xE0, 0x90, 0xE0,
  0xF0, 0x80, 0x80, 0x80, 0xF0,
  0xE0, 0x90, 0x90, 0x90, 0xE0,
  0xF0, 0x80, 0xF0, 0x80, 0xF0,
  0xF0, 0x80, 0xF0, 0x80, 0x80]

/-- The parameters the spec leaves to an implementation. `State` carries them unchanged (log entry 4), so that a
statement about every state is a statement about every setting. -/
structure Params where
  /-- FONT, the 80 glyph bytes (R8). -/
  font : Vector Byte 80
  /-- DECODE_5_9_STRICT (R14, R79). -/
  decode59Strict : Bool
  /-- GOV_RATE, instructions a period (R11). -/
  govRate : Nat
  /-- GOV_PERIOD in milliseconds, never 0 (R11). -/
  govPeriod : { ms : Nat // 0 < ms }
  /-- TIMER_DIVIDER, completed instructions a timer event, never 0 (R12, R229; a parameter by 93_implementation_defined.md
  row 17; log entry 15). -/
  timerDivider : { n : Nat // 0 < n }
  /-- RNG_SEED (R13). -/
  rngSeed : RngState
  /-- The spacing in milliseconds of the ticks that come when the host queue is empty; in WAIT_KEY it is POLL_INTERVAL
  (R15, R199). DESIGN CHOICE, log entry 3. -/
  tickInterval : Nat
deriving DecidableEq, Repr

/-- The defaults: FONT (R53), DECODE_5_9_STRICT = true (R14), 14 instructions per 100 ms (R11),
a timer event every 5 completed instructions (R12). RNG_SEED and the tick
interval have no default in the spec (log entries 6 and 3). -/
def Params.default : Params where
  font := Config.defaultFont
  decode59Strict := true
  govRate := 14
  govPeriod := ⟨100, by decide⟩
  timerDivider := ⟨5, by decide⟩
  rngSeed := 0
  tickInterval := 10

end Sys2Proof
end

