-- ==== Sys2Proof/Syntax.lean ====
section
/-! DEFINITION. The instructions: one constructor per row of spec/opcode_table.json, in the table's order, with the
fields of the row's format (30_encoding.md R71, R72). The spelling of R82 is at the end. -/

namespace Sys2Proof

/-- The 35 operations (R74, R75). -/
inductive Instr where
  /-- 00E0, CLS (R181). -/
  | cls
  /-- 00EE, RET (R111). -/
  | ret
  /-- 0nnn, SYS addr (R110). -/
  | sys (nnn : Addr)
  /-- 1nnn, JP addr (R112). -/
  | jp (nnn : Addr)
  /-- 2nnn, CALL addr (R113). -/
  | call (nnn : Addr)
  /-- 3xkk, SE Vx,byte (R114). -/
  | seImm (x : Reg) (kk : Byte)
  /-- 4xkk, SNE Vx,byte (R115). -/
  | sneImm (x : Reg) (kk : Byte)
  /-- 5xy0, SE Vx,Vy (R116). -/
  | seReg (x y : Reg)
  /-- 6xkk, LD Vx,byte (R132). -/
  | ldImm (x : Reg) (kk : Byte)
  /-- 7xkk, ADD Vx,byte (R133). -/
  | addImm (x : Reg) (kk : Byte)
  /-- 8xy0, LD Vx,Vy (R134). -/
  | ldReg (x y : Reg)
  /-- 8xy1, OR Vx,Vy (R135). -/
  | orReg (x y : Reg)
  /-- 8xy2, AND Vx,Vy (R136). -/
  | andReg (x y : Reg)
  /-- 8xy3, XOR Vx,Vy (R137). -/
  | xorReg (x y : Reg)
  /-- 8xy4, ADD Vx,Vy (R138). -/
  | addReg (x y : Reg)
  /-- 8xy5, SUB Vx,Vy (R139). -/
  | sub (x y : Reg)
  /-- 8xy6, SHR Vx,Vy; y is decoded and ignored (R140, R81). -/
  | shr (x y : Reg)
  /-- 8xy7, SUBN Vx,Vy (R141). -/
  | subn (x y : Reg)
  /-- 8xyE, SHL Vx,Vy; y is decoded and ignored (R142, R81). -/
  | shl (x y : Reg)
  /-- 9xy0, SNE Vx,Vy (R117). -/
  | sneReg (x y : Reg)
  /-- Annn, LD I,addr (R160). -/
  | ldI (nnn : Addr)
  /-- Bnnn, JP V0,addr (R118). -/
  | jpV0 (nnn : Addr)
  /-- Cxkk, RND Vx,byte (R143). -/
  | rnd (x : Reg) (kk : Byte)
  /-- Dxyn, DRW Vx,Vy,n (R182). -/
  | drw (x y : Reg) (n : Nibble)
  /-- Ex9E, SKP Vx (R196). -/
  | skp (x : Reg)
  /-- ExA1, SKNP Vx (R197). -/
  | sknp (x : Reg)
  /-- Fx07, LD Vx,DT (R200). -/
  | ldVxDt (x : Reg)
  /-- Fx0A, LD Vx,K (R198). -/
  | ldVxK (x : Reg)
  /-- Fx15, LD DT,Vx (R201). -/
  | ldDtVx (x : Reg)
  /-- Fx18, LD ST,Vx (R202). -/
  | ldStVx (x : Reg)
  /-- Fx1E, ADD I,Vx (R161). -/
  | addI (x : Reg)
  /-- Fx29, LD F,Vx (R162). -/
  | ldF (x : Reg)
  /-- Fx33, LD B,Vx (R163). -/
  | ldB (x : Reg)
  /-- Fx55, LD [I],Vx (R164). -/
  | ldMemVx (x : Reg)
  /-- Fx65, LD Vx,[I] (R165). -/
  | ldVxMem (x : Reg)
deriving DecidableEq, Repr

/-- One upper-case hexadecimal digit. -/
def hexDigit (n : Nat) : String :=
  (["0", "1", "2", "3", "4", "5", "6", "7", "8", "9", "A", "B", "C", "D", "E", "F"][n % 16]?).getD "0"

/-- Registers are spelt `V0`..`VF` (R82). -/
def Reg.asm (x : Reg) : String := "V" ++ hexDigit x.val

/-- An immediate byte in hexadecimal with `0x` (R82). -/
def Byte.asm (kk : Byte) : String := "0x" ++ hexDigit (kk.toNat / 16) ++ hexDigit kk.toNat

/-- An address in hexadecimal with `0x` (R82). -/
def Addr.asm (nnn : Addr) : String :=
  "0x" ++ hexDigit (nnn.toNat / 256) ++ hexDigit (nnn.toNat / 16) ++ hexDigit nnn.toNat

/-- The field n in decimal, as in `DRW V1,V2,5` (R84). -/
def Nibble.asm (n : Nibble) : String :=
  if n.toNat < 10 then hexDigit n.toNat else "1" ++ hexDigit (n.toNat - 10)

/-- A mnemonic and two operands, with R82's comma. -/
def asm2 (mnemonic a b : String) : String := mnemonic ++ " " ++ a ++ "," ++ b

/-- The assembly spelling of R82: the mnemonic first, then comma-separated operands. Mnemonics are overloaded and the
operand shapes tell them apart. -/
def Instr.asm : Instr → String
  | .cls => "CLS"
  | .ret => "RET"
  | .sys nnn => "SYS " ++ Addr.asm nnn
  | .jp nnn => "JP " ++ Addr.asm nnn
  | .call nnn => "CALL " ++ Addr.asm nnn
  | .seImm x kk => asm2 "SE" (Reg.asm x) (Byte.asm kk)
  | .sneImm x kk => asm2 "SNE" (Reg.asm x) (Byte.asm kk)
  | .seReg x y => asm2 "SE" (Reg.asm x) (Reg.asm y)
  | .ldImm x kk => asm2 "LD" (Reg.asm x) (Byte.asm kk)
  | .addImm x kk => asm2 "ADD" (Reg.asm x) (Byte.asm kk)
  | .ldReg x y => asm2 "LD" (Reg.asm x) (Reg.asm y)
  | .orReg x y => asm2 "OR" (Reg.asm x) (Reg.asm y)
  | .andReg x y => asm2 "AND" (Reg.asm x) (Reg.asm y)
  | .xorReg x y => asm2 "XOR" (Reg.asm x) (Reg.asm y)
  | .addReg x y => asm2 "ADD" (Reg.asm x) (Reg.asm y)
  | .sub x y => asm2 "SUB" (Reg.asm x) (Reg.asm y)
  | .shr x y => asm2 "SHR" (Reg.asm x) (Reg.asm y)
  | .subn x y => asm2 "SUBN" (Reg.asm x) (Reg.asm y)
  | .shl x y => asm2 "SHL" (Reg.asm x) (Reg.asm y)
  | .sneReg x y => asm2 "SNE" (Reg.asm x) (Reg.asm y)
  | .ldI nnn => asm2 "LD" "I" (Addr.asm nnn)
  | .jpV0 nnn => asm2 "JP" "V0" (Addr.asm nnn)
  | .rnd x kk => asm2 "RND" (Reg.asm x) (Byte.asm kk)
  | .drw x y n => asm2 "DRW" (Reg.asm x) (Reg.asm y ++ "," ++ Nibble.asm n)
  | .skp x => "SKP " ++ Reg.asm x
  | .sknp x => "SKNP " ++ Reg.asm x
  | .ldVxDt x => asm2 "LD" (Reg.asm x) "DT"
  | .ldVxK x => asm2 "LD" (Reg.asm x) "K"
  | .ldDtVx x => asm2 "LD" "DT" (Reg.asm x)
  | .ldStVx x => asm2 "LD" "ST" (Reg.asm x)
  | .addI x => asm2 "ADD" "I" (Reg.asm x)
  | .ldF x => asm2 "LD" "F" (Reg.asm x)
  | .ldB x => asm2 "LD" "B" (Reg.asm x)
  | .ldMemVx x => asm2 "LD" "[I]" (Reg.asm x)
  | .ldVxMem x => asm2 "LD" (Reg.asm x) "[I]"

end Sys2Proof
end

