-- ==== Sys2Proof/Decode.lean ====
section
/-! DEFINITION. The decoder, total on every 16-bit opcode and rejecting an UNDEFINED one by its group (30_encoding.md
R70 to R81), and after it the encoder of R84 and the rows of spec/opcode_table.json. -/

namespace Sys2Proof

/-! ### Fields (R71) -/

/-- `g`, bits 15..12. -/
def fieldG (op : Word) : Nibble := op.extractLsb' 12 4
/-- `x`, bits 11..8. -/
def fieldX (op : Word) : Reg := (op.extractLsb' 8 4).toFin
/-- `y`, bits 7..4. -/
def fieldY (op : Word) : Reg := (op.extractLsb' 4 4).toFin
/-- `kk`, bits 7..0. -/
def fieldKK (op : Word) : Byte := op.extractLsb' 0 8
/-- `nnn`, bits 11..0. -/
def fieldNNN (op : Word) : Addr := op.extractLsb' 0 12
/-- `n`, bits 3..0. -/
def fieldN (op : Word) : Nibble := op.extractLsb' 0 4

/-- The opcode of two consecutive bytes, the first one high (R54). -/
def opcodeOfBytes (first second : Byte) : Word :=
  (first.setWidth 16 <<< 8) ||| second.setWidth 16

/-! ### The decoder -/

/-- The groups that hold UNDEFINED opcodes (R78). -/
inductive UndefinedGroup where
  | group5 | group8 | group9 | groupE | groupF
deriving DecidableEq, Repr

/-- What the decoder answers: one of the 35 operations, or UNDEFINED, named by its group (R74). -/
inductive Decoded where
  | instr (i : Instr)
  | undefined (g : UndefinedGroup)
deriving DecidableEq, Repr

/-- Group 0, by the full opcode: CLS and RET first, then SYS (R75, R76). -/
def decodeGroup0 (op : Word) : Decoded :=
  if op = 0x00E0#16 then .instr .cls
  else if op = 0x00EE#16 then .instr .ret
  else .instr (.sys (fieldNNN op))

/-- Groups 5 and 9: with DECODE_5_9_STRICT a non-zero bottom nibble is UNDEFINED, without it the nibble is ignored
(R79). -/
def decodeGroup59 (strict : Bool) (g : UndefinedGroup) (i : Instr) (op : Word) : Decoded :=
  if strict && fieldN op != 0#4 then .undefined g else .instr i

/-- Group 8, by the bottom nibble (R75). -/
def decodeGroup8 (op : Word) : Decoded :=
  let x := fieldX op
  let y := fieldY op
  match (fieldN op).toNat with
  | 0x0 => .instr (.ldReg x y)
  | 0x1 => .instr (.orReg x y)
  | 0x2 => .instr (.andReg x y)
  | 0x3 => .instr (.xorReg x y)
  | 0x4 => .instr (.addReg x y)
  | 0x5 => .instr (.sub x y)
  | 0x6 => .instr (.shr x y)
  | 0x7 => .instr (.subn x y)
  | 0xE => .instr (.shl x y)
  | _ => .undefined .group8

/-- Group E, by the bottom byte (R75). -/
def decodeGroupE (op : Word) : Decoded :=
  match (fieldKK op).toNat with
  | 0x9E => .instr (.skp (fieldX op))
  | 0xA1 => .instr (.sknp (fieldX op))
  | _ => .undefined .groupE

/-- Group F, by the bottom byte (R75). -/
def decodeGroupF (op : Word) : Decoded :=
  let x := fieldX op
  match (fieldKK op).toNat with
  | 0x07 => .instr (.ldVxDt x)
  | 0x0A => .instr (.ldVxK x)
  | 0x15 => .instr (.ldDtVx x)
  | 0x18 => .instr (.ldStVx x)
  | 0x1E => .instr (.addI x)
  | 0x29 => .instr (.ldF x)
  | 0x33 => .instr (.ldB x)
  | 0x55 => .instr (.ldMemVx x)
  | 0x65 => .instr (.ldVxMem x)
  | _ => .undefined .groupF

/-- The opcode map (R75). `strict` is DECODE_5_9_STRICT (R14). The last arm is group F. -/
def decode (strict : Bool) (op : Word) : Decoded :=
  match (fieldG op).toNat with
  | 0x0 => decodeGroup0 op
  | 0x1 => .instr (.jp (fieldNNN op))
  | 0x2 => .instr (.call (fieldNNN op))
  | 0x3 => .instr (.seImm (fieldX op) (fieldKK op))
  | 0x4 => .instr (.sneImm (fieldX op) (fieldKK op))
  | 0x5 => decodeGroup59 strict .group5 (.seReg (fieldX op) (fieldY op)) op
  | 0x6 => .instr (.ldImm (fieldX op) (fieldKK op))
  | 0x7 => .instr (.addImm (fieldX op) (fieldKK op))
  | 0x8 => decodeGroup8 op
  | 0x9 => decodeGroup59 strict .group9 (.sneReg (fieldX op) (fieldY op)) op
  | 0xA => .instr (.ldI (fieldNNN op))
  | 0xB => .instr (.jpV0 (fieldNNN op))
  | 0xC => .instr (.rnd (fieldX op) (fieldKK op))
  | 0xD => .instr (.drw (fieldX op) (fieldY op) (fieldN op))
  | 0xE => decodeGroupE op
  | _ => decodeGroupF op

/-- The instruction of a decoder's answer, none for UNDEFINED. -/
def Decoded.instr? : Decoded → Option Instr
  | .instr i => some i
  | .undefined _ => none

/-- The low `nbits` bits of `w` as one 16-bit opcode; bits from `nbits` up are 0. -/
def tableWord (nbits w : Nat) : Word := BitVec.ofNat 16 (w % 2 ^ nbits)

/-- The two bytes of an opcode as memory holds them, the high byte at the lower address (R54). -/
def tableBytes (nbits w : Nat) : Byte × Byte :=
  let op := tableWord nbits w
  ((op >>> 8).setWidth 8, op.setWidth 8)

/-- The instruction the decoder reads from the opcode-table word `w`, laid out as two bytes in memory and read back,
under the default DECODE_5_9_STRICT (R14). -/
def decodeTableWord (nbits w : Nat) : Option Instr :=
  let b := tableBytes nbits w
  (decode Params.default.decode59Strict (opcodeOfBytes b.1 b.2)).instr?

/-! ### The encoder (R84) -/

/-- A 4-bit field. -/
def regBits (x : Reg) : Nibble := BitVec.ofFin x

/-- Format NNN: `gggg nnnn nnnn nnnn` (R72). -/
def encNNN (g : Nibble) (nnn : Addr) : Word := g ++ nnn
/-- Format XKK: `gggg xxxx kkkk kkkk` (R72). -/
def encXKK (g : Nibble) (x : Reg) (kk : Byte) : Word := (g ++ regBits x ++ kk : BitVec (4 + 4 + 8))
/-- Formats XY and XYN: `gggg xxxx yyyy nnnn` (R72). -/
def encXYN (g : Nibble) (x y : Reg) (n : Nibble) : Word := (g ++ regBits x ++ regBits y ++ n : BitVec (4 + 4 + 4 + 4))

/-- The word of an instruction (R84, and the encoding of each row of the opcode table). -/
def encode : Instr → Word
  | .cls => 0x00E0#16
  | .ret => 0x00EE#16
  | .sys nnn => encNNN 0x0 nnn
  | .jp nnn => encNNN 0x1 nnn
  | .call nnn => encNNN 0x2 nnn
  | .seImm x kk => encXKK 0x3 x kk
  | .sneImm x kk => encXKK 0x4 x kk
  | .seReg x y => encXYN 0x5 x y 0x0
  | .ldImm x kk => encXKK 0x6 x kk
  | .addImm x kk => encXKK 0x7 x kk
  | .ldReg x y => encXYN 0x8 x y 0x0
  | .orReg x y => encXYN 0x8 x y 0x1
  | .andReg x y => encXYN 0x8 x y 0x2
  | .xorReg x y => encXYN 0x8 x y 0x3
  | .addReg x y => encXYN 0x8 x y 0x4
  | .sub x y => encXYN 0x8 x y 0x5
  | .shr x y => encXYN 0x8 x y 0x6
  | .subn x y => encXYN 0x8 x y 0x7
  | .shl x y => encXYN 0x8 x y 0xE
  | .sneReg x y => encXYN 0x9 x y 0x0
  | .ldI nnn => encNNN 0xA nnn
  | .jpV0 nnn => encNNN 0xB nnn
  | .rnd x kk => encXKK 0xC x kk
  | .drw x y n => encXYN 0xD x y n
  | .skp x => encXKK 0xE x 0x9E
  | .sknp x => encXKK 0xE x 0xA1
  | .ldVxDt x => encXKK 0xF x 0x07
  | .ldVxK x => encXKK 0xF x 0x0A
  | .ldDtVx x => encXKK 0xF x 0x15
  | .ldStVx x => encXKK 0xF x 0x18
  | .addI x => encXKK 0xF x 0x1E
  | .ldF x => encXKK 0xF x 0x29
  | .ldB x => encXKK 0xF x 0x33
  | .ldMemVx x => encXKK 0xF x 0x55
  | .ldVxMem x => encXKK 0xF x 0x65

/-! ### The opcode table -/

/-- The mask of an instruction's row of spec/opcode_table.json (DECODE_5_9_STRICT = true). -/
def rowMask : Instr → Word
  | .cls | .ret => 0xFFFF
  | .sys _ | .jp _ | .call _ | .ldI _ | .jpV0 _ => 0xF000
  | .seImm _ _ | .sneImm _ _ | .ldImm _ _ | .addImm _ _ | .rnd _ _ | .drw _ _ _ => 0xF000
  | .seReg _ _ | .ldReg _ _ | .orReg _ _ | .andReg _ _ | .xorReg _ _ | .addReg _ _ | .sub _ _ | .shr _ _ | .subn _ _
  | .shl _ _ | .sneReg _ _ => 0xF00F
  | .skp _ | .sknp _ | .ldVxDt _ | .ldVxK _ | .ldDtVx _ | .ldStVx _ | .addI _ | .ldF _ | .ldB _ | .ldMemVx _
  | .ldVxMem _ => 0xF0FF

/-- The match of an instruction's row of spec/opcode_table.json. -/
def rowMatch : Instr → Word
  | .cls => 0x00E0
  | .ret => 0x00EE
  | .sys _ => 0x0000
  | .jp _ => 0x1000
  | .call _ => 0x2000
  | .seImm _ _ => 0x3000
  | .sneImm _ _ => 0x4000
  | .seReg _ _ => 0x5000
  | .ldImm _ _ => 0x6000
  | .addImm _ _ => 0x7000
  | .ldReg _ _ => 0x8000
  | .orReg _ _ => 0x8001
  | .andReg _ _ => 0x8002
  | .xorReg _ _ => 0x8003
  | .addReg _ _ => 0x8004
  | .sub _ _ => 0x8005
  | .shr _ _ => 0x8006
  | .subn _ _ => 0x8007
  | .shl _ _ => 0x800E
  | .sneReg _ _ => 0x9000
  | .ldI _ => 0xA000
  | .jpV0 _ => 0xB000
  | .rnd _ _ => 0xC000
  | .drw _ _ _ => 0xD000
  | .skp _ => 0xE09E
  | .sknp _ => 0xE0A1
  | .ldVxDt _ => 0xF007
  | .ldVxK _ => 0xF00A
  | .ldDtVx _ => 0xF015
  | .ldStVx _ => 0xF018
  | .addI _ => 0xF01E
  | .ldF _ => 0xF029
  | .ldB _ => 0xF033
  | .ldMemVx _ => 0xF055
  | .ldVxMem _ => 0xF065

/-- The bits of `op` that an instruction's row fixes are as the row fixes them. -/
def matchesRow (i : Instr) (op : Word) : Prop := op &&& rowMask i = rowMatch i

end Sys2Proof
end

