-- ==== Sys2Proof/Machine/State.lean ====
section
/-! DEFINITION. The state of the core (10_state.md), plain data, and the machine right after power-on reset
(R45, 70_reset_and_hazards.md R250). -/

namespace Sys2Proof.Machine

/-- The run state (R39). -/
inductive RunState where
  /-- After reset, before a successful ROM load: no instruction executes. -/
  | idle
  /-- The cycle driver executes instructions. -/
  | run
  /-- An Fx0A is suspended, polling for a key. -/
  | waitKey
  /-- A fatal fault stopped the run. -/
  | fault
deriving DecidableEq, Repr

/-- `fault_code`: 0 for no fault and the five causes of 60_exceptions.md R215. -/
inductive FaultCode where
  | noFault | addrFetch | addrRead | addrWrite | stackOverflow | stackUnderflow
deriving DecidableEq, Repr

/-- The 3-bit code (R40, R215). -/
def FaultCode.toBits : FaultCode → BitVec 3
  | .noFault => 0
  | .addrFetch => 1
  | .addrRead => 2
  | .addrWrite => 3
  | .stackOverflow => 4
  | .stackUnderflow => 5

/-- The host's moves that change state, as the host table R233 lists them (the display read, the audio loop and the
status read change nothing). -/
inductive HostEvent where
  /-- `reset`, at the timestamp `now` (R250). -/
  | reset (now : Millis)
  /-- `load_rom(bytes)` (R253). -/
  | loadRom (bytes : List Byte)
  /-- `tick(now)`: one scheduling tick (R90). -/
  | tick (now : Millis)
  /-- A press of the key with code `k`, stored into the key slot (R231). -/
  | keyPress (k : Nibble)
deriving DecidableEq, Repr

/-- The 64 columns of 32 pixels each; `disp[c][r]` is column c, row r (R32, R180). -/
abbrev Display := Vector (Vector Bool 32) 64

/-- The bytes that differ from the reset contents, by address, strictly rising (`Memory.wf` in Ops.lean). -/
abbrev Memory := List Host.Cell

/-- All the state of the core. -/
structure State where
  /-- V0..VF (R20). -/
  v : Vector Byte 16
  /-- I (R23). -/
  i : Word
  /-- PC: while an instruction executes, the address of its first byte (R25). -/
  pc : Word
  /-- SP, the number of occupied stack entries, 0..16 (R29). -/
  sp : Fin 17
  /-- stack[0..15], saved PC values (R28). -/
  stack : Vector Word 16
  /-- DT (R30). -/
  dt : Byte
  /-- ST (R31). -/
  st : Byte
  /-- The display buffer (R32). -/
  disp : Display
  /-- Memory[0..4095] (R33, R50), as the bytes that differ from the reset contents. -/
  mem : Memory
  /-- rng_state (R34). -/
  rng : RngState
  /-- The governor's allowance (R35). -/
  allowance : Rat
  /-- The governor's last_check (R35). -/
  lastCheck : Millis
  /-- tc, the timer-cadence counter, which stays below TIMER_DIVIDER: 0..4 at the default (R36; log entry 20). -/
  tc : Nat
  /-- The key slot (R37). -/
  keySlot : Option Nibble
  /-- The last value passed to the audio collaborator's set_playing (R38). -/
  playing : Bool
  /-- run_state (R39). -/
  runState : RunState
  /-- wait_x, the destination of a pending Fx0A (R39). -/
  waitX : Reg
  /-- fault_code (R40). -/
  faultCode : FaultCode
  /-- fault_pc (R41). -/
  faultPc : Word
  /-- fault_addr (R42). -/
  faultAddr : Word
  /-- The MODEL's own field (log entry 8): the last load_rom the core took up was reported as failed (R254). -/
  loadFailed : Bool
  /-- The configuration (R8, R11 to R15), which no step changes (log entry 4). -/
  params : Params
  /-- The MODEL's own field (log entry 2): the host's coming moves, oldest first. -/
  hostQueue : List HostEvent
  /-- The MODEL's own field (log entry 3): the timestamp of the host's last tick or reset. -/
  hostClock : Millis
deriving DecidableEq, Repr

/-- The faults of the host's interface. It has no constructor: the core's five faults (R215) are fatal conditions whose
entry the spec describes (R216), so they are next states in run state FAULT, and no other condition stops the core
(R218, R221). Safe; log entry 1. -/
inductive Fault
deriving DecidableEq, Repr

/-- The refusals. -/
inductive Refusal where
  /-- Raised by `exec` for an instruction that has no meaning in this model yet; no arm answers it. Safe. -/
  | notModelled (mnemonic : String)
deriving DecidableEq, Repr

/-- The machine right after power-on reset (R45, R250, R251), with the default parameters. The spec gives every value but
these, which the log names: RNG_SEED (entry 6), the timestamp of the power-on reset (entry 7), the model's own fields
(entries 2, 3, 8) and FONT's bytes (entry 5). -/
def State.reset : State where
  v := Vector.replicate 16 0
  i := 0
  pc := 0x200
  sp := 0
  stack := Vector.replicate 16 0
  dt := 0
  st := 0
  disp := Vector.replicate 64 (Vector.replicate 32 false)
  mem := []
  rng := Params.default.rngSeed
  allowance := 14
  lastCheck := 0
  tc := 0
  keySlot := none
  playing := false
  runState := .idle
  waitX := 0
  faultCode := .noFault
  faultPc := 0
  faultAddr := 0
  loadFailed := false
  params := Params.default
  hostQueue := []
  hostClock := 0

end Sys2Proof.Machine
end

