-- ==== Sys2Proof/Machine/Ops.lean ====
section
/-! DEFINITION. The named operations over memory, registers, PC, stack, key slot and generator, and fault entry. The
meanings of the instructions are written in terms of these. -/

namespace Sys2Proof.Machine

/-! ### Memory (20_memory.md) -/

/-- What an unlisted address reads as: the reset contents, FONT at 0..79 and 0 above (R45, R51). -/
def resetByte (p : Params) (a : Nat) : Byte :=
  if h : a < 80 then p.font[a] else 0

/-- The byte at `a` in a memory whose unlisted addresses read as `d` says. -/
def memRead (d : Nat → Byte) : Memory → Nat → Byte
  | [], a => d a
  | (b, w) :: m, a => if a = b then w else memRead d m a

/-- `m` with the byte at `a` replaced by `w`, in canonical form: a byte equal to what an unlisted address reads as is
not listed. -/
def memInsert (d : Nat → Byte) : Memory → Nat → Byte → Memory
  | [], a, w => if w = d a then [] else [(a, w)]
  | (b, u) :: m, a, w =>
    if a < b then (if w = d a then (b, u) :: m else (a, w) :: (b, u) :: m)
    else if a = b then (if w = d a then m else (a, w) :: m)
    else (b, u) :: memInsert d m a w

/-- `MemWrite` on the list: an address outside memory does not exist, so nothing is written there. Every meaning checks
its addresses first (R55, R56). -/
def memWrite (d : Nat → Byte) (m : Memory) (a : Nat) (w : Byte) : Memory :=
  if a < Config.memSize then memInsert d m a w else m

/-- The canonical form from address `lo` up: addresses in [lo, 4096) strictly rising, and no entry equal to what an
unlisted address reads as. -/
def memWfFrom (d : Nat → Byte) : Nat → Memory → Bool
  | _, [] => true
  | lo, (a, w) :: m => decide (lo ≤ a) && decide (a < Config.memSize) && decide (w ≠ d a) && memWfFrom d (a + 1) m

/-- The canonical form of a memory. -/
def Memory.wf (d : Nat → Byte) (m : Memory) : Bool := memWfFrom d 0 m

/-- The memory of a state is in canonical form. -/
abbrev State.memWf (s : State) : Prop := Memory.wf (resetByte s.params) s.mem = true

/-- `MemRead(a, 1)` (R17), for an `a` in memory. -/
def State.readByte (s : State) (a : Nat) : Byte := memRead (resetByte s.params) s.mem a

/-- The state with another memory. -/
def State.setMem (s : State) (m : Memory) : State := { s with mem := m }

/-- `MemWrite(a, 1, w)` (R17), for an `a` in memory. -/
def State.writeByte (s : State) (a : Nat) (w : Byte) : State :=
  s.setMem (memWrite (resetByte s.params) s.mem a w)

/-- One-byte reads at the `n` addresses base, base + 1, ... (R57). -/
def State.readBytes (s : State) : Nat → Nat → List Byte
  | _, 0 => []
  | base, n + 1 => s.readByte base :: s.readBytes (base + 1) n

/-- One-byte writes at base, base + 1, ..., in rising order (R57). -/
def State.writeBytes (s : State) : Nat → List Byte → State
  | _, [] => s
  | base, w :: ws => (s.writeByte base w).writeBytes (base + 1) ws

/-- Every address of [base, base + len) is in memory (R55). -/
def rangeLegal (base len : Nat) : Bool := len == 0 || base + len ≤ Config.memSize

/-- The lowest address of [base, base + len) outside memory, when the range holds one (43_index_memory.md). -/
def lowestIllegal (base : Nat) : Nat := max base Config.memSize

/-! ### Registers (R20, R23, R25) -/

/-- V[x]. -/
def State.reg (s : State) (x : Reg) : Byte := s.v[x]

/-- V[x] <- w. -/
def State.setReg (s : State) (x : Reg) (w : Byte) : State := { s with v := s.v.set x w }

/-- V[0], ..., V[x] (Fx55). -/
def State.regsUpTo (s : State) (x : Reg) : List Byte := s.v.toList.take (x.val + 1)

/-- V[k], V[k+1], ... <- the bytes, in rising order (Fx65). -/
def State.loadRegs (s : State) : Nat → List Byte → State
  | _, [] => s
  | k, w :: ws => (s.setReg (Fin.ofNat 16 k) w).loadRegs (k + 1) ws

/-- PC <- w. -/
def State.setPc (s : State) (w : Word) : State := { s with pc := w }

/-- I <- w. -/
def State.setI (s : State) (w : Word) : State := { s with i := w }

/-- DT <- w. -/
def State.setDt (s : State) (w : Byte) : State := { s with dt := w }

/-- ST <- w. -/
def State.setSt (s : State) (w : Byte) : State := { s with st := w }

/-- The state with another display buffer. -/
def State.setDisp (s : State) (d : Display) : State := { s with disp := d }

/-! ### PC advance (R96) -/

/-- The sequential class: PC <- (PC + 2) mod 65536. -/
def State.advance (s : State) : State := s.setPc (s.pc + 2)

/-- The skip class: PC + 4 if the condition holds, else PC + 2. -/
def State.skipIf (s : State) (c : Bool) : State := if c then s.setPc (s.pc + 4) else s.advance

/-! ### Fault entry (60_exceptions.md R216) -/

/-- `raise Fault(code, addr)`: fault_code, fault_pc, fault_addr, run_state = FAULT and playing = false, nothing more. -/
def State.raiseFault (s : State) (code : FaultCode) (addr : Nat) : State :=
  { s with
    faultCode := code
    faultPc := s.pc
    faultAddr := BitVec.ofNat 16 addr
    runState := .fault
    playing := false }

/-- An access to [base, base + len): when an address of it is illegal, the fault with the lowest illegal address and
none of the instruction's effect; else the instruction's effect `t` (R56). -/
def State.checkedAccess (s : State) (code : FaultCode) (base len : Nat) (t : State) : State :=
  if rangeLegal base len then t else s.raiseFault code (lowestIllegal base)

/-! ### Call stack (R28, R29) -/

/-- stack[SP] <- PC; SP <- SP + 1, for SP < 16 (R113). -/
def State.pushPc (s : State) (h : s.sp.val < 16) : State :=
  { s with stack := s.stack.set s.sp.val s.pc h, sp := ⟨s.sp.val + 1, by omega⟩ }

/-- SP <- SP - 1; PC <- (stack[SP] + 2) mod 65536, for SP > 0; the entry keeps its value (R111). -/
def State.popPc (s : State) (h : 0 < s.sp.val) : State :=
  { s with sp := ⟨s.sp.val - 1, by omega⟩, pc := s.stack[s.sp.val - 1]'(by omega) + 2 }

/-! ### Key slot and generator -/

/-- The key slot's content and the state with the slot empty: `key_take()` (R195). -/
def State.keyTake (s : State) : Option Nibble × State := (s.keySlot, { s with keySlot := none })

/-- The last captured key is the one V[x] names; an empty slot or a V[x] above 15 matches no key (R196, R197). -/
def keyMatches (k : Option Nibble) (w : Byte) : Bool :=
  match k with
  | some key => key.setWidth 8 == w
  | none => false

/-- wait_x <- x; run_state <- WAIT_KEY (R198). -/
def State.beginWait (s : State) (x : Reg) : State := { s with waitX := x, runState := .waitKey }

/-- `rng_draw()` (R17): the drawn byte and the state with the generator advanced. -/
def State.rngDraw (s : State) : Byte × State :=
  ((Config.rngNext s.rng).1, { s with rng := (Config.rngNext s.rng).2 })

/-! ### Views of the host (R19) -/

/-- The pixel at column c and row r (R230). -/
def State.pixel (s : State) (c : Fin 64) (r : Fin 32) : Bool := s.disp[c][r]

/-- The fields of the `status` interface (R43). -/
structure Status where
  runState : RunState
  faultCode : BitVec 3
  faultPc : Word
  faultAddr : Word
deriving DecidableEq, Repr

/-- The host's status read (R43); it changes nothing. -/
def State.status (s : State) : Status :=
  { runState := s.runState, faultCode := s.faultCode.toBits, faultPc := s.faultPc, faultAddr := s.faultAddr }

end Sys2Proof.Machine
end

