-- ==== Sys2Proof/Machine/Operands.lean ====
section
/-! DEFINITION. The operand forms (30_encoding.md R73, 43_index_memory.md R166): immediates zero-extended, registers by
number, and memory through I at an exact integer address. -/

namespace Sys2Proof.Machine

/-- `zext_16(nnn)`, the form in which an address reaches PC and I (R73). -/
def zextAddr (nnn : Addr) : Word := nnn.setWidth 16

/-- `zext_16(v)` of a register's byte (R118, R161, R162). -/
def zextByte (w : Byte) : Word := w.setWidth 16

/-- A key code as the value of a register (R198). -/
def zextKey (k : Nibble) : Byte := k.setWidth 8

/-- The address in I as an exact integer, which never wraps before the check (R55, R166). -/
def State.base (s : State) : Nat := s.i.toNat

/-- The three decimal digits of a byte: hundreds, tens, ones (R163). -/
def bcdDigits (w : Byte) : List Byte :=
  [BitVec.ofNat 8 (w.toNat / 100), BitVec.ofNat 8 (w.toNat / 10 % 10), BitVec.ofNat 8 (w.toNat % 10)]

end Sys2Proof.Machine
end

