-- ==== Sys2Proof/Machine/Flags.lean ====
section
/-! DEFINITION. The flags that go into VF (42_register_alu.md R130, R131). -/

namespace Sys2Proof.Machine

/-- A flag is 0 or 1 (R130). -/
def flagByte (b : Bool) : Byte := if b then 1 else 0

/-- The carry of `a + b`, from the exact sum of the operands before the instruction (R138). -/
def carryFlag (a b : Byte) : Byte := flagByte (decide (255 < a.toNat + b.toNat))

/-- 1 iff `a > b`, strictly (R139, R141). -/
def greaterFlag (a b : Byte) : Byte := flagByte (decide (b.toNat < a.toNat))

/-- The bit that SHR shifts out, bit 0 (R140). -/
def shrFlag (a : Byte) : Byte := a &&& 1

/-- The bit that SHL shifts out, bit 7 (R142). -/
def shlFlag (a : Byte) : Byte := (a >>> 7) &&& 1

/-- The writes of a flag-writing operation in the table's order: VF first, then V[x], so that with x = F the result
stays (R131). -/
def State.setFlagThenReg (s : State) (flag : Byte) (x : Reg) (result : Byte) : State :=
  (s.setReg regVF flag).setReg x result

end Sys2Proof.Machine
end

