-- ==== Sys2Proof/Machine/Control.lean ====
section
/-! DEFINITION. Control transfer (41_control_flow.md R110 to R118) and the UNDEFINED no-op (30_encoding.md R77). -/

namespace Sys2Proof.Machine

/-- The outcome of an instruction of this core: always a next state. -/
abbrev Result := Host.Outcome State Fault Refusal

/-- An UNDEFINED opcode: a no-op that advances PC by 2 (R77). No row of the opcode table; the cycle driver runs it. -/
def execUndefined (s : State) : Result := .next s.advance

/-- SYS addr: ignored (R110). -/
def execSys (_nnn : Addr) (s : State) : Result := .next s.advance

/-- RET (R111). -/
def execRet (s : State) : Result :=
  if h : 0 < s.sp.val then .next (s.popPc h) else .next (s.raiseFault .stackUnderflow 0)

/-- JP addr (R112). -/
def execJp (nnn : Addr) (s : State) : Result := .next (s.setPc (zextAddr nnn))

/-- CALL addr (R113). -/
def execCall (nnn : Addr) (s : State) : Result :=
  if h : s.sp.val < 16 then .next ((s.pushPc h).setPc (zextAddr nnn)) else .next (s.raiseFault .stackOverflow 0)

/-- SE Vx,byte (R114). -/
def execSeImm (x : Reg) (kk : Byte) (s : State) : Result := .next (s.skipIf (s.reg x == kk))

/-- SNE Vx,byte (R115). -/
def execSneImm (x : Reg) (kk : Byte) (s : State) : Result := .next (s.skipIf (s.reg x != kk))

/-- SE Vx,Vy (R116). -/
def execSeReg (x y : Reg) (s : State) : Result := .next (s.skipIf (s.reg x == s.reg y))

/-- SNE Vx,Vy (R117). -/
def execSneReg (x y : Reg) (s : State) : Result := .next (s.skipIf (s.reg x != s.reg y))

/-- JP V0,addr (R118). -/
def execJpV0 (nnn : Addr) (s : State) : Result := .next (s.setPc (zextAddr nnn + zextByte (s.reg regV0)))

end Sys2Proof.Machine
end

