-- ==== Sys2Proof/Machine/Alu.lean ====
section
/-! DEFINITION. Register and ALU operations (42_register_alu.md R132 to R143). -/

namespace Sys2Proof.Machine

/-- V[x] <- w; PC + 2. -/
def State.resultOnly (s : State) (x : Reg) (w : Byte) : State := (s.setReg x w).advance

/-- VF <- flag; V[x] <- w; PC + 2 (R131). -/
def State.resultWithFlag (s : State) (x : Reg) (flag w : Byte) : State := (s.setFlagThenReg flag x w).advance

/-- LD Vx,byte (R132). -/
def execLdImm (x : Reg) (kk : Byte) (s : State) : Result := .next (s.resultOnly x kk)

/-- ADD Vx,byte: wraps, no flag (R133). -/
def execAddImm (x : Reg) (kk : Byte) (s : State) : Result := .next (s.resultOnly x (s.reg x + kk))

/-- LD Vx,Vy (R134). -/
def execLdReg (x y : Reg) (s : State) : Result := .next (s.resultOnly x (s.reg y))

/-- OR Vx,Vy (R135). -/
def execOrReg (x y : Reg) (s : State) : Result := .next (s.resultOnly x (s.reg x ||| s.reg y))

/-- AND Vx,Vy (R136). -/
def execAndReg (x y : Reg) (s : State) : Result := .next (s.resultOnly x (s.reg x &&& s.reg y))

/-- XOR Vx,Vy (R137). -/
def execXorReg (x y : Reg) (s : State) : Result := .next (s.resultOnly x (s.reg x ^^^ s.reg y))

/-- ADD Vx,Vy (R138). -/
def execAddReg (x y : Reg) (s : State) : Result :=
  let a := s.reg x
  let b := s.reg y
  .next (s.resultWithFlag x (carryFlag a b) (a + b))

/-- SUB Vx,Vy (R139). -/
def execSub (x y : Reg) (s : State) : Result :=
  let a := s.reg x
  let b := s.reg y
  .next (s.resultWithFlag x (greaterFlag a b) (a - b))

/-- SHR Vx,Vy; y is ignored (R140). -/
def execShr (x _y : Reg) (s : State) : Result :=
  let a := s.reg x
  .next (s.resultWithFlag x (shrFlag a) (a >>> 1))

/-- SUBN Vx,Vy (R141). -/
def execSubn (x y : Reg) (s : State) : Result :=
  let a := s.reg x
  let b := s.reg y
  .next (s.resultWithFlag x (greaterFlag b a) (b - a))

/-- SHL Vx,Vy; y is ignored (R142). -/
def execShl (x _y : Reg) (s : State) : Result :=
  let a := s.reg x
  .next (s.resultWithFlag x (shlFlag a) (a <<< 1))

/-- RND Vx,byte: one draw, a free value, under the mask (R143; log entry 6). -/
def execRnd (x : Reg) (kk : Byte) (s : State) : Result :=
  let r := s.rngDraw
  .next (r.2.resultOnly x (r.1 &&& kk))

end Sys2Proof.Machine
end

