-- ==== Sys2Proof/Machine/Index.lean ====
section
/-! DEFINITION. The index register and memory transfers (43_index_memory.md R160 to R165). -/

namespace Sys2Proof.Machine

/-- LD I,addr (R160). -/
def execLdI (nnn : Addr) (s : State) : Result := .next (s.setI (zextAddr nnn)).advance

/-- ADD I,Vx: mod 65536, no flag (R161). -/
def execAddI (x : Reg) (s : State) : Result := .next (s.setI (s.i + zextByte (s.reg x))).advance

/-- LD F,Vx: five times the whole V[x] (R162). -/
def execLdF (x : Reg) (s : State) : Result :=
  .next (s.setI (zextByte (s.reg x) * BitVec.ofNat 16 Config.glyphBytes)).advance

/-- LD B,Vx (R163). -/
def execLdB (x : Reg) (s : State) : Result :=
  .next (s.checkedAccess .addrWrite s.base 3 (s.writeBytes s.base (bcdDigits (s.reg x))).advance)

/-- LD [I],Vx (R164). -/
def execLdMemVx (x : Reg) (s : State) : Result :=
  .next (s.checkedAccess .addrWrite s.base (x.val + 1) (s.writeBytes s.base (s.regsUpTo x)).advance)

/-- LD Vx,[I] (R165). -/
def execLdVxMem (x : Reg) (s : State) : Result :=
  .next (s.checkedAccess .addrRead s.base (x.val + 1) (s.loadRegs 0 (s.readBytes s.base (x.val + 1))).advance)

end Sys2Proof.Machine
end

