-- ==== Sys2Proof/Machine/Draw.lean ====
section
/-! DEFINITION. Display operations (44_display.md R180 to R185). -/

namespace Sys2Proof.Machine

/-- All pixels off (R181). -/
def clearDisplay : Display := Vector.replicate 64 (Vector.replicate 32 false)

/-- disp[c][r] <- b. -/
def setPixel (d : Display) (c : Fin 64) (r : Fin 32) (b : Bool) : Display := d.set c (d[c].set r b)

/-- The bit of a sprite byte for its column c: bit 7 is the leftmost (R183). -/
def spriteBit (row : Byte) (c : Nat) : Bool := row.getLsbD (7 - c)

/-- One sprite pixel at the exact coordinate (px, py): when its bit is set and it lies on the grid it is XORed into the
buffer, and a pixel that was on makes a collision; otherwise it is dropped (R182, R184, R185). -/
def drawPixel (bit : Bool) (px py : Nat) (acc : Display × Bool) : Display × Bool :=
  if h : px < 64 ∧ py < 32 then
    if bit then
      let old := acc.1[px][py]
      (setPixel acc.1 ⟨px, h.1⟩ ⟨py, h.2⟩ (!old), acc.2 || old)
    else acc
  else acc

/-- The columns c, c + 1, ... of one sprite row; `n` of them are left (R182). -/
def drawColumns (ox py : Nat) (row : Byte) : Nat → Nat → Display × Bool → Display × Bool
  | _, 0, acc => acc
  | c, n + 1, acc => drawColumns ox py row (c + 1) n (drawPixel (spriteBit row c) (ox + c) py acc)

/-- The rows of a sprite, eight columns each, downwards from `py` (R182). -/
def drawRows (ox : Nat) : Nat → List Byte → Display × Bool → Display × Bool
  | _, [], acc => acc
  | py, row :: rows, acc => drawRows ox (py + 1) rows (drawColumns ox py row 0 8 acc)

/-- The state after a draw: the new buffer, VF <- collision, PC + 2 (R182). -/
def State.finishDraw (s : State) (drawn : Display × Bool) : State :=
  ((s.setDisp drawn.1).setReg regVF (flagByte drawn.2)).advance

/-- CLS (R181). -/
def execCls (s : State) : Result := .next (s.setDisp clearDisplay).advance

/-- DRW Vx,Vy,n (R182): all n addresses are checked first, those of clipped rows included. -/
def execDrw (x y : Reg) (n : Nibble) (s : State) : Result :=
  .next (s.checkedAccess .addrRead s.base n.toNat
    (s.finishDraw (drawRows (s.reg x).toNat (s.reg y).toNat (s.readBytes s.base n.toNat) (s.disp, false))))

end Sys2Proof.Machine
end

