-- ==== Sys2Proof/Machine/InputTimers.lean ====
section
/-! DEFINITION. Key input and timer access (45_input_timers.md R195 to R202), the timer event and the completion of an
instruction (60_exceptions.md R227 to R229, 40_fetch_cycle.md R97). -/

namespace Sys2Proof.Machine

/-- SKP Vx (R196). -/
def execSkp (x : Reg) (s : State) : Result :=
  let t := s.keyTake
  .next (t.2.skipIf (keyMatches t.1 (s.reg x)))

/-- SKNP Vx: an empty slot counts as different (R197). -/
def execSknp (x : Reg) (s : State) : Result :=
  let t := s.keyTake
  .next (t.2.skipIf (!keyMatches t.1 (s.reg x)))

/-- The key reaches V[x] and PC advances: the completion that Fx0A and the poll share (R198, R199). -/
def State.deliverKey (s : State) (x : Reg) (k : Nibble) : State := (s.setReg x (zextKey k)).advance

/-- LD Vx,K: with a key in the slot it completes now, with none it waits, PC unchanged (R198). -/
def execLdVxK (x : Reg) (s : State) : Result :=
  let t := s.keyTake
  match t.1 with
  | some k => .next (t.2.deliverKey x k)
  | none => .next (t.2.beginWait x)

/-- LD Vx,DT (R200). -/
def execLdVxDt (x : Reg) (s : State) : Result := .next (s.resultOnly x s.dt)

/-- LD DT,Vx (R201). -/
def execLdDtVx (x : Reg) (s : State) : Result := .next (s.setDt (s.reg x)).advance

/-- LD ST,Vx: signals nothing (R202). -/
def execLdStVx (x : Reg) (s : State) : Result := .next (s.setSt (s.reg x)).advance

/-- A timer counts down and stays at 0 (R227). -/
def countDown (w : Byte) : Byte := if w = 0 then 0 else w - 1

/-- `TimerEvent()`: both timers count down, and `playing` is set to ST > 0 (R227, R228). -/
def State.timerEvent (s : State) : State :=
  { s with dt := countDown s.dt, st := countDown s.st, playing := decide (0 < (countDown s.st).toNat) }

/-- tc <- (tc + 1) mod TIMER_DIVIDER (R229). -/
def State.bumpCadence (s : State) : State := { s with tc := (s.tc + 1) % s.params.timerDivider.val }

/-- `CompleteInstruction()` (R97). -/
def State.completeInstruction (s : State) : State :=
  if s.bumpCadence.tc = 0 then s.bumpCadence.timerEvent else s.bumpCadence

/-- run_state <- RUN (R199). -/
def State.resume (s : State) : State := { s with runState := .run }

/-- One poll in WAIT_KEY (R199). -/
def State.pollKey (s : State) : State :=
  let t := s.keyTake
  match t.1 with
  | some k => ((t.2.deliverKey s.waitX k).resume).completeInstruction
  | none => t.2

end Sys2Proof.Machine
end

