-- ==== Sys2Proof/Machine/Governor.lean ====
section
/-! DEFINITION. The rate governor, a token bucket in exact rational arithmetic (70_reset_and_hazards.md R260, R261).
The four rational operations are spelt out on numerators and denominators, because the library's own are sealed against
evaluation; Laws/Governor.lean proves each equal to the library's. -/

namespace Sys2Proof.Machine

/-- `a + b`. -/
def ratAdd (a b : Rat) : Rat := mkRat (a.num * b.den + b.num * a.den) (a.den * b.den)
/-- `a - b`. -/
def ratSub (a b : Rat) : Rat := mkRat (a.num * b.den - b.num * a.den) (a.den * b.den)
/-- `a * n / d`, for a divisor `d` that is not 0. -/
def ratScale (a : Rat) (n d : Nat) : Rat := mkRat (a.num * n) (a.den * d)
/-- `a ≤ b`. -/
def ratLe (a b : Rat) : Bool := decide (a.num * b.den ≤ b.num * a.den)
/-- `min(a, b)`. -/
def ratMin (a b : Rat) : Rat := if ratLe a b then a else b
/-- `max(a, b)`. -/
def ratMax (a b : Rat) : Rat := if ratLe a b then b else a

/-- The refilled allowance: min(GOV_RATE, allowance + elapsed * GOV_RATE / GOV_PERIOD), where a timestamp that goes
backwards counts as no time. -/
def State.refilled (s : State) (now : Millis) : Rat :=
  ratMin (mkRat s.params.govRate 1)
    (ratAdd s.allowance (ratScale (ratMax 0 (ratSub now s.lastCheck)) s.params.govRate s.params.govPeriod.val))

/-- The governor's two fields (R35). -/
def State.setGovernor (s : State) (allowance : Rat) (lastCheck : Millis) : State :=
  { s with allowance := allowance, lastCheck := lastCheck }

/-- `GovernorConsult(now)`: whether the instruction is granted, and the state with the governor's fields updated. -/
def State.governorConsult (s : State) (now : Millis) : Bool × State :=
  let refill := s.refilled now
  let check := ratMax s.lastCheck now
  if ratLe 1 refill then (true, s.setGovernor (ratSub refill 1) check) else (false, s.setGovernor refill check)

end Sys2Proof.Machine
end

