-- ==== Sys2Proof/Machine/HostMoves.lean ====
section
/-! DEFINITION. The host's moves other than a tick: reset, ROM load and key press (70_reset_and_hazards.md R250 to R254,
60_exceptions.md R231, R233). -/

namespace Sys2Proof.Machine

/-- `Reset(now)` (R250). The key slot is not touched, and neither are the parameters and the host's coming moves. The
load-failure report is cleared (log entry 8). -/
def State.hostReset (s : State) (now : Millis) : State where
  v := Vector.replicate 16 0
  i := 0
  pc := BitVec.ofNat 16 Config.romBase
  sp := 0
  stack := Vector.replicate 16 0
  dt := 0
  st := 0
  disp := clearDisplay
  mem := []
  rng := s.params.rngSeed
  allowance := mkRat s.params.govRate 1
  lastCheck := now
  tc := 0
  keySlot := s.keySlot
  playing := false
  runState := .idle
  waitX := 0
  faultCode := .noFault
  faultPc := 0
  faultAddr := 0
  loadFailed := false
  params := s.params
  hostQueue := s.hostQueue
  hostClock := now

/-- run_state and the load report after a `load_rom` that was taken up. -/
def State.endLoad (s : State) (runState : RunState) (failed : Bool) : State :=
  { s with runState := runState, loadFailed := failed }

/-- `load_rom(bytes)`: ignored outside IDLE; a ROM longer than MAX_ROM is reported and writes nothing; any other is copied
to 0x200 and the core runs (R253, R254). -/
def State.hostLoadRom (s : State) (bytes : List Byte) : State :=
  match s.runState with
  | .run | .waitKey | .fault => s
  | .idle =>
    if Config.maxRom < bytes.length then s.endLoad .idle true
    else (s.writeBytes Config.romBase bytes).endLoad .run false

/-- A key press: an atomic store of `some k` into the slot, over what it held (R65, R231). -/
def State.hostKeyPress (s : State) (k : Nibble) : State := { s with keySlot := some k }

/-- The host's clock stands at the timestamp of its last tick (log entry 3). -/
def State.setHostClock (s : State) (now : Millis) : State := { s with hostClock := now }

/-- The host's coming moves. -/
def State.setHostQueue (s : State) (q : List HostEvent) : State := { s with hostQueue := q }

end Sys2Proof.Machine
end

