-- ==== Sys2Proof/Machine/Driver.lean ====
section
/-! DEFINITION. The cycle driver (40_fetch_cycle.md R90 to R101): one tick, its fetch and its instruction, and the move
of the host that a step takes. -/

namespace Sys2Proof.Machine

/-- What a fetch finds: an opcode, or the lowest illegal address (R92). -/
inductive Fetched where
  | opcode (op : Word)
  | illegal (addr : Nat)
deriving DecidableEq, Repr

/-- `Fetch(PC)` (R92, R93): two bytes, the first one high. It changes no state. -/
def State.fetch (s : State) : Fetched :=
  if s.pc.toNat + 1 < Config.memSize then
    .opcode (opcodeOfBytes (s.readByte s.pc.toNat) (s.readByte (s.pc.toNat + 1)))
  else .illegal (lowestIllegal s.pc.toNat)

/-- After Execute: an instruction that leaves the core in RUN completes (R90). -/
def State.afterExecute (s : State) : State :=
  if s.runState = .run then s.completeInstruction else s

/-- A next state passed through `f`; a stop stays as it is. -/
def mapNext (f : State → State) : Result → Result
  | .next s => .next (f s)
  | .fault r => .fault r
  | .refused r => .refused r

/-- Execute what the decoder answers; UNDEFINED is a no-op (R77, R95). -/
def execDecoded (d : Decoded) (s : State) : Result :=
  match d with
  | .instr i => exec i s
  | .undefined _ => execUndefined s

/-- A granted tick: fetch, decode, execute, complete (R90). -/
def State.runInstruction (s : State) : Result :=
  match s.fetch with
  | .illegal addr => .next (s.raiseFault .addrFetch addr)
  | .opcode op => mapNext State.afterExecute (execDecoded (decode s.params.decode59Strict op) s)

/-- One tick: in RUN the governor decides (R90, R98), in WAIT_KEY one poll (R100), in IDLE and FAULT nothing (R99). -/
def State.tick (s : State) (now : Millis) : Result :=
  match s.runState with
  | .idle | .fault => .next s
  | .waitKey => .next s.pollKey
  | .run =>
    let g := s.governorConsult now
    if g.1 then g.2.runInstruction else .next g.2

/-- One move of the host (R233). -/
def State.hostMove (s : State) (e : HostEvent) : Result :=
  match e with
  | .reset now => .next (s.hostReset now)
  | .loadRom bytes => .next (s.hostLoadRom bytes)
  | .keyPress k => .next (s.hostKeyPress k)
  | .tick now => (s.setHostClock now).tick now

/-- The timestamp of the tick that comes when the host queue is empty (log entry 3). -/
def State.nextTick (s : State) : Millis := ratAdd s.hostClock (mkRat s.params.tickInterval 1)

/-- One step of the model: the host's oldest coming move, or a tick when none is queued (log entries 2 and 3). -/
def driverStep (s : State) : Result :=
  match s.hostQueue with
  | [] => s.hostMove (.tick s.nextTick)
  | e :: q => (s.setHostQueue q).hostMove e

/-- `s` in RUN with the opcode-table word `w` at PC and PC + 1 and, as the host's next move, a tick one whole period
after the governor's last check, which refills the bucket and so is granted (log entry 14). -/
def State.placeFetchWord (s : State) (nbits w : Nat) : State :=
  let b := tableBytes nbits w
  let t := s.writeBytes s.pc.toNat [b.1, b.2]
  { t with
    runState := .run
    hostQueue := .tick (ratAdd s.lastCheck (mkRat s.params.govPeriod.val 1)) :: s.hostQueue }

end Sys2Proof.Machine
end

