-- ==== Sys2Proof/Machine/Step.lean ====
section
/-! DEFINITION. The step of the model, and the state that fetches a given instruction next. -/

namespace Sys2Proof.Machine

/-- One step: the host's next move and all the core does for it. -/
def step (s : State) : Host.Outcome State Fault Refusal := Sys2Proof.Machine.driverStep s

/-- `s` with the instruction whose opcode-table word is `w` placed where `step` fetches next (log entry 14). -/
def State.withFetchWord (s : State) (nbits w : Nat) : State := s.placeFetchWord nbits w

end Sys2Proof.Machine
end

