-- ==== Sys2Proof/Safety.lean ====
section
/-! DEFINITION. The terms in which claims about the core are made: frames, fault entry, the spec's lists of who may write
what, the sprite of a draw, the grants of a sequence of ticks, and the invariant of the machine. -/

namespace Sys2Proof.Machine

/-! ### A tick -/

/-- The next move of the host is a tick at `now`, and `u` is `s` with that tick taken up: the oldest move of the queue leaves it, or,
with an empty queue, the tick is the model's own at `nextTick` (log entries 2 and 3); the host's clock stands at `now`. -/
def TickComes (s : State) (now : Millis) (u : State) : Prop :=
  (∃ q, s.hostQueue = .tick now :: q ∧ u = (s.setHostQueue q).setHostClock now) ∨
    (s.hostQueue = [] ∧ now = s.nextTick ∧ u = s.setHostClock now)

/-! ### Frames -/

/-- PC moved on by `k`, mod 65536 (R96). -/
def PcBy (s t : State) (k : Nat) : Prop := t.pc.toNat = (s.pc.toNat + k) % 65536

/-- Every byte of memory reads as before. -/
def SameBytes (s t : State) : Prop := ∀ a, t.readByte a = s.readByte a

/-- Nothing but PC differs. -/
def OnlyPc (s t : State) : Prop := t = { s with pc := t.pc }

/-- Nothing but V registers and PC differs. -/
def OnlyRegsPc (s t : State) : Prop := t = { s with v := t.v, pc := t.pc }

/-- A PC at 0xFFF or above faults at the next fetch, at the lowest illegal address (R93, R120). -/
def HighPcFetchFaults (t : State) : Prop := 0xFFF ≤ t.pc.toNat → t.fetch = .illegal (max t.pc.toNat 0x1000)

/-- Fault entry and nothing else (R216, R217). -/
def EntersFault (s t : State) (code : FaultCode) (addr : Nat) : Prop :=
  t.faultCode = code ∧ t.faultPc = s.pc ∧ t.faultAddr.toNat = addr ∧ t.runState = .fault ∧ t.playing = false ∧
    t = { s with
          faultCode := t.faultCode, faultPc := t.faultPc, faultAddr := t.faultAddr, runState := .fault, playing := false }

/-! ### Who may write what -/

/-- The V registers an instruction may write (R22). -/
def mayWriteReg : Instr → Reg → Prop
  | .ldImm x _, r | .addImm x _, r | .ldReg x _, r | .orReg x _, r | .andReg x _, r | .xorReg x _, r | .rnd x _, r
  | .ldVxDt x, r | .ldVxK x, r => r = x
  | .addReg x _, r | .sub x _, r | .shr x _, r | .subn x _, r | .shl x _, r => r = x ∨ r = regVF
  | .drw _ _ _, r => r = regVF
  | .ldVxMem x, r => r.val ≤ x.val
  | .cls, _ | .ret, _ | .sys _, _ | .jp _, _ | .call _, _ | .seImm _ _, _ | .sneImm _ _, _ | .seReg _ _, _
  | .sneReg _ _, _ | .ldI _, _ | .jpV0 _, _ | .skp _, _ | .sknp _, _ | .ldDtVx _, _ | .ldStVx _, _ | .addI _, _
  | .ldF _, _ | .ldB _, _ | .ldMemVx _, _ => False

/-- The skip class of R96. -/
def skips : Instr → Prop
  | .seImm _ _ | .sneImm _ _ | .seReg _ _ | .sneReg _ _ | .skp _ | .sknp _ => True
  | .cls | .ret | .sys _ | .jp _ | .call _ | .ldImm _ _ | .addImm _ _ | .ldReg _ _ | .orReg _ _ | .andReg _ _
  | .xorReg _ _ | .addReg _ _ | .sub _ _ | .shr _ _ | .subn _ _ | .shl _ _ | .ldI _ | .jpV0 _ | .rnd _ _ | .drw _ _ _
  | .ldVxDt _ | .ldVxK _ | .ldDtVx _ | .ldStVx _ | .addI _ | .ldF _ | .ldB _ | .ldMemVx _ | .ldVxMem _ => False

/-- The jump and return classes of R96. -/
def setsPc : Instr → Prop
  | .jp _ | .jpV0 _ | .call _ | .ret => True
  | .cls | .sys _ | .seImm _ _ | .sneImm _ _ | .seReg _ _ | .ldImm _ _ | .addImm _ _ | .ldReg _ _ | .orReg _ _
  | .andReg _ _ | .xorReg _ _ | .addReg _ _ | .sub _ _ | .shr _ _ | .subn _ _ | .shl _ _ | .sneReg _ _ | .ldI _
  | .rnd _ _ | .drw _ _ _ | .skp _ | .sknp _ | .ldVxDt _ | .ldVxK _ | .ldDtVx _ | .ldStVx _ | .addI _ | .ldF _
  | .ldB _ | .ldMemVx _ | .ldVxMem _ => False

/-- The faults an instruction can raise beside its fetch's (R218). -/
def mayRaise : Instr → FaultCode → Prop
  | .call _, c => c = .stackOverflow
  | .ret, c => c = .stackUnderflow
  | .drw _ _ _, c | .ldVxMem _, c => c = .addrRead
  | .ldB _, c | .ldMemVx _, c => c = .addrWrite
  | .cls, _ | .sys _, _ | .jp _, _ | .seImm _ _, _ | .sneImm _ _, _ | .seReg _ _, _ | .ldImm _ _, _ | .addImm _ _, _
  | .ldReg _ _, _ | .orReg _ _, _ | .andReg _ _, _ | .xorReg _ _, _ | .addReg _ _, _ | .sub _ _, _ | .shr _ _, _
  | .subn _ _, _ | .shl _ _, _ | .sneReg _ _, _ | .ldI _, _ | .jpV0 _, _ | .rnd _ _, _ | .skp _, _ | .sknp _, _
  | .ldVxDt _, _ | .ldVxK _, _ | .ldDtVx _, _ | .ldStVx _, _ | .addI _, _ | .ldF _, _ => False

/-! ### Display and governor -/

/-- The sprite of a draw with origin (ox, oy) and `n` rows read from I covers the pixel (c, r): the pixel is in the
sprite's rectangle, taken in exact integers, and its bit is set (R183, R184). -/
def spriteCovers (s : State) (ox oy n : Nat) (c : Fin 64) (r : Fin 32) : Bool :=
  decide (ox ≤ c.val) && decide (c.val < ox + 8) && decide (oy ≤ r.val) && decide (r.val < oy + n) &&
    (s.readByte (s.i.toNat + (r.val - oy))).getLsbD (7 - (c.val - ox))

/-- The number of grants when the governor is consulted at these timestamps in turn (R261). -/
def grantsOver : State → List Millis → Nat
  | _, [] => 0
  | s, now :: later =>
    (if (s.governorConsult now).1 then 1 else 0) + grantsOver (s.governorConsult now).2 later

/-! ### The invariant -/

/-- 0 ≤ allowance ≤ GOV_RATE (R262). -/
def State.governorBounded (s : State) : Prop := 0 ≤ s.allowance ∧ s.allowance ≤ (s.params.govRate : Rat)

/-- tc is below TIMER_DIVIDER: 0..4 at the default (R36). -/
def State.cadenceInRange (s : State) : Prop := s.tc < s.params.timerDivider.val

/-- The fault record says FAULT exactly in run state FAULT; there the tone is off and PC is the faulting instruction's;
an address fault names an address outside memory, a stack fault and no fault the address 0 (R40 to R42, R215, R237). -/
def State.faultRecorded (s : State) : Prop :=
  (s.runState = .fault ↔ s.faultCode ≠ .noFault) ∧
    (s.runState = .fault → s.playing = false ∧ s.faultPc = s.pc) ∧
    match s.faultCode with
    | .noFault => s.faultPc = 0 ∧ s.faultAddr = 0
    | .addrFetch | .addrRead | .addrWrite => Config.memSize ≤ s.faultAddr.toNat
    | .stackOverflow | .stackUnderflow => s.faultAddr = 0

/-- A key wait stands at an instruction that was fetched (R198). -/
def State.waitsAtInstruction (s : State) : Prop := s.runState = .waitKey → s.pc.toNat + 1 < Config.memSize

/-- In IDLE the machine is as its reset left it, but for the host's clock and the load report (R253, R254). -/
def State.idleAsReset (s : State) : Prop :=
  s.runState = .idle → s = { s.hostReset s.lastCheck with hostClock := s.hostClock, loadFailed := s.loadFailed }

/-- A failed load leaves the core in IDLE (R254). -/
def State.failedLoadIdle (s : State) : Prop := s.loadFailed = true → s.runState = .idle

/-- The invariant that every step keeps. -/
structure State.Inv (s : State) : Prop where
  memory : s.memWf
  governor : s.governorBounded
  cadence : s.cadenceInRange
  faults : s.faultRecorded
  waits : s.waitsAtInstruction
  idle : s.idleAsReset
  load : s.failedLoadIdle

end Sys2Proof.Machine
end

