-- ==== Sys2Proof/Certificates/Slice0/Obligations.lean ====
section
/-! DEFINITION. The statements for the provers. Each docstring names the rule of spec/ it formalises. Where a rule carries
the spec's own mark "[decision: ...]" or "[derived: ...]", or a point is the model's choice, the docstring says so. -/

open Sys2Proof Sys2Proof.Machine

/-! ## Encoding (30_encoding.md) -/

/-- A few words of each family, written from the encodings of the opcode table, decode to their instructions; 8128, E0FF and
F0FF are UNDEFINED. (A sanity statement; words of 95_test_vectors.md.) -/
def Obligations.KnownWordsDecode : Prop :=
  decode true 0x00E0#16 = .instr .cls ∧ decode true 0x0123#16 = .instr (.sys 0x123) ∧
  decode true 0x6342#16 = .instr (.ldImm 3 0x42) ∧ decode true 0x8014#16 = .instr (.addReg 0 1) ∧
  decode true 0xF265#16 = .instr (.ldVxMem 2) ∧ decode true 0xD125#16 = .instr (.drw 1 2 5) ∧
  decode true 0xE0A1#16 = .instr (.sknp 0) ∧ decode true 0x8128#16 = .undefined .group8 ∧
  decode true 0xE0FF#16 = .undefined .groupE ∧ decode true 0xF0FF#16 = .undefined .groupF

/-- Decoding an encoded well-formed instruction gives it back, under either DECODE_5_9_STRICT (30_encoding.md sections 1, 2
and 4). -/
def Obligations.DecodeOfEncode : Prop :=
  ∀ (strict : Bool) (i : Instr), i.wf = true → decode strict (encode i) = .instr i

/-- With DECODE_5_9_STRICT each opcode that decodes has one meaning: encoding that meaning gives the opcode back, and it is
well formed (30_encoding.md section 2). -/
def Obligations.EncodeOfDecode : Prop :=
  ∀ (op : Word) (i : Instr), decode true op = .instr i → encode i = op ∧ i.wf = true

/-- The UNDEFINED encodings, exactly: those the list of 30_encoding.md section 3 names (a list the spec marks as derived),
with groups 5 and 9 only under DECODE_5_9_STRICT (decision D7). The fields are written as quotients of the opcode. -/
def Obligations.UndefinedExactly : Prop :=
  ∀ (strict : Bool) (op : Word), (∃ g, decode strict op = .undefined g) ↔
    (op.toNat / 4096 = 8 ∧ op.toNat % 16 ∈ [0x8, 0x9, 0xA, 0xB, 0xC, 0xD, 0xF]) ∨
    (op.toNat / 4096 = 0xE ∧ op.toNat % 256 ∉ [0x9E, 0xA1]) ∨
    (op.toNat / 4096 = 0xF ∧ op.toNat % 256 ∉ [0x07, 0x0A, 0x15, 0x18, 0x1E, 0x29, 0x33, 0x55, 0x65]) ∨
    (strict = true ∧ (op.toNat / 4096 = 5 ∨ op.toNat / 4096 = 9) ∧ op.toNat % 16 ≠ 0)

/-- Outside group 0, an opcode that has the fixed bits of an instruction's row decodes to an instruction of that row, so at
most one row matches it (30_encoding.md section 2, a sentence the spec marks as derived). -/
def Obligations.MatchingRowDecides : Prop :=
  ∀ (i : Instr) (op : Word), matchesRow i op → op.toNat / 4096 ≠ 0 →
    ∃ j, decode true op = .instr j ∧ rowMask j = rowMask i ∧ rowMatch j = rowMatch i

/-- Groups 5 and 9 with a non-zero bottom nibble: UNDEFINED when DECODE_5_9_STRICT, SE Vx,Vy and SNE Vx,Vy ignoring the nibble
when not; on every other opcode the parameter decides nothing (R79's text, the open parameter of decision D7). -/
def Obligations.StrictParameterReachesGroups5And9Only : Prop :=
  (∀ op : Word, op.toNat / 4096 = 5 →
    (op.toNat % 16 ≠ 0 → decode true op = .undefined .group5) ∧
    decode false op = .instr (.seReg (fieldX op) (fieldY op))) ∧
  (∀ op : Word, op.toNat / 4096 = 9 →
    (op.toNat % 16 ≠ 0 → decode true op = .undefined .group9) ∧
    decode false op = .instr (.sneReg (fieldX op) (fieldY op))) ∧
  (∀ op : Word, (op.toNat / 4096 ≠ 5 ∧ op.toNat / 4096 ≠ 9) ∨ op.toNat % 16 = 0 → decode false op = decode true op)

/-! ## The step (40_fetch_cycle.md) -/

/-- When a tick is granted in RUN and the opcode at PC decodes to `i`, the step is exec of `i` followed, when it leaves the core
in RUN, by the completion of the instruction (40_fetch_cycle.md sections 1 and 5). Around exec the step also takes the tick from
the host queue, sets the host clock and consults the governor; with an empty queue the tick is the model's own at `nextTick`
(log entries 2 and 3). -/
def Obligations.StepRunsDecodedInstruction : Prop :=
  ∀ (s u : State) (now : Millis) (op : Word) (i : Instr),
    TickComes s now u → s.runState = .run → (u.governorConsult now).1 = true →
    s.fetch = .opcode op → decode s.params.decode59Strict op = .instr i →
    step s = mapNext State.afterExecute (exec i (u.governorConsult now).2)

/-- R77: a granted UNDEFINED opcode changes nothing but PC, by 2, and counts for the cadence; it neither faults nor stops. (The
tick itself moves the governor's two fields and the model's host fields.) -/
def Obligations.UndefinedOpcodeIsCountedNoOp : Prop :=
  ∀ (s u : State) (now : Millis) (op : Word) (g : UndefinedGroup),
    TickComes s now u → s.runState = .run → (u.governorConsult now).1 = true →
    s.fetch = .opcode op → decode s.params.decode59Strict op = .undefined g →
    ∃ t w, step s = .next t ∧ t = w.completeInstruction ∧ PcBy s w 2 ∧
      w = { s with
            pc := w.pc, hostQueue := u.hostQueue, hostClock := now
            allowance := (u.governorConsult now).2.allowance, lastCheck := (u.governorConsult now).2.lastCheck }

/-- A fetch reads the two bytes at PC and PC + 1, the lower address the high byte (40_fetch_cycle.md section 2; the byte order
is the spec's own choice, decision D1), and past the end of memory finds the lowest illegal address. -/
def Obligations.FetchIsBigEndian : Prop :=
  ∀ s : State,
    (s.pc.toNat < 0xFFF → ∃ op, s.fetch = .opcode op ∧
      op.toNat = 256 * (s.readByte s.pc.toNat).toNat + (s.readByte (s.pc.toNat + 1)).toNat) ∧
    (0xFFF ≤ s.pc.toNat → s.fetch = .illegal (if 0x1000 ≤ s.pc.toNat then s.pc.toNat else 0x1000))

/-- A granted fetch at PC ≥ 0xFFF enters FAULT with code 1, fault_pc = PC and fault_addr the lowest illegal address; nothing is
decoded, executed or counted (40_fetch_cycle.md section 2). -/
def Obligations.FetchFaultIsEntered : Prop :=
  ∀ (s u : State) (now : Millis),
    TickComes s now u → s.runState = .run → (u.governorConsult now).1 = true → 0xFFF ≤ s.pc.toNat →
    ∃ t w, step s = .next t ∧
      EntersFault w t .addrFetch (if 0x1000 ≤ s.pc.toNat then s.pc.toNat else 0x1000) ∧ t.status.faultCode = 1 ∧
      w = { s with
            hostQueue := u.hostQueue, hostClock := now
            allowance := (u.governorConsult now).2.allowance, lastCheck := (u.governorConsult now).2.lastCheck }

/-- R98: a denied tick changes nothing except `allowance` and `last_check` (and the model's own host fields). -/
def Obligations.DeniedTickMovesOnlyGovernor : Prop :=
  ∀ (s u : State) (now : Millis),
    TickComes s now u → s.runState = .run → (u.governorConsult now).1 = false →
    ∃ t, step s = .next t ∧
      t = { s with hostQueue := u.hostQueue, hostClock := now, allowance := t.allowance, lastCheck := t.lastCheck }

/-- A tick in IDLE or FAULT changes nothing but the model's own host fields (40_fetch_cycle.md section 5; the spec's own choice,
decision D13). -/
def Obligations.IdleAndFaultTicksChangeNothing : Prop :=
  ∀ (s u : State) (now : Millis),
    TickComes s now u → (s.runState = .idle ∨ s.runState = .fault) →
    step s = .next { s with hostQueue := u.hostQueue, hostClock := now }

/-- A poll in WAIT_KEY: with a key the waiting Fx0A completes, V[wait_x] takes the key, PC moves on by 2, the core runs and the
instruction is counted; with none nothing changes. The governor is not consulted (45_input_timers.md section 2; the spec's own
choice, decision D21). -/
def Obligations.WaitKeyPoll : Prop :=
  ∀ (s u : State) (now : Millis),
    TickComes s now u → s.runState = .waitKey →
    (s.keySlot = none → step s = .next { s with hostQueue := u.hostQueue, hostClock := now }) ∧
    (∀ k, s.keySlot = some k → ∃ t w, step s = .next t ∧ t = w.completeInstruction ∧
      (w.reg s.waitX).toNat = k.toNat ∧ (∀ r, r ≠ s.waitX → w.reg r = s.reg r) ∧ PcBy s w 2 ∧
      w = { s with
            v := w.v, pc := w.pc, keySlot := none, runState := .run, hostQueue := u.hostQueue, hostClock := now })

/-- CompleteInstruction counts modulo TIMER_DIVIDER, 5 at the default, and runs a timer event when the count comes to 0; it writes
nothing else (40_fetch_cycle.md section 5, 60_exceptions.md section 3; the order is the spec's own choice, decisions D18 and
D19; the divider is a parameter, 93_implementation_defined.md row 17). -/
def Obligations.CompletionCountsModDivider : Prop :=
  ∀ s : State, s.completeInstruction.tc = (s.tc + 1) % s.params.timerDivider.val ∧
    ((s.tc + 1) % s.params.timerDivider.val = 0 → s.completeInstruction = { s.timerEvent with tc := 0 }) ∧
    ((s.tc + 1) % s.params.timerDivider.val ≠ 0 → s.completeInstruction = { s with tc := s.completeInstruction.tc })

/-- R227: a timer event takes 1 from each timer above 0, leaves a timer at 0 there, sets `playing` to ST > 0, and writes nothing
else. -/
def Obligations.TimerEventCountsDown : Prop :=
  ∀ s : State,
    (0 < s.dt.toNat → s.timerEvent.dt.toNat = s.dt.toNat - 1) ∧ (s.dt = 0 → s.timerEvent.dt = 0) ∧
    (0 < s.st.toNat → s.timerEvent.st.toNat = s.st.toNat - 1) ∧ (s.st = 0 → s.timerEvent.st = 0) ∧
    (s.timerEvent.playing = true ↔ 0 < s.timerEvent.st.toNat) ∧
    s.timerEvent = { s with dt := s.timerEvent.dt, st := s.timerEvent.st, playing := s.timerEvent.playing }

/-- After n completed instructions the delay timer has come down by one for every wrap of the cadence counter and never below 0;
so DT = d > 0 reaches 0 after between D(d-1)+1 and Dd completions, D being TIMER_DIVIDER, 5 at the default
(70_reset_and_hazards.md section 4, a bound the spec marks as derived and states for 5). That tc is in its range is a premise,
a clause of the invariant. -/
def Obligations.DelayTimerAfterCompletions : Prop :=
  ∀ (s : State) (n : Nat), s.cadenceInRange →
    (State.completeInstruction^[n] s).dt.toNat = s.dt.toNat - (s.tc + n) / s.params.timerDivider.val ∧
    (State.completeInstruction^[n] s).tc = (s.tc + n) % s.params.timerDivider.val ∧
    (0 < s.dt.toNat → n ≤ s.params.timerDivider.val * (s.dt.toNat - 1) → (State.completeInstruction^[n] s).dt ≠ 0) ∧
    (s.params.timerDivider.val * s.dt.toNat ≤ n → (State.completeInstruction^[n] s).dt = 0)

/-! ## The governor (70_reset_and_hazards.md) -/

/-- One consult: refill by the elapsed time, capped at GOV_RATE, then grant and take one token iff at least one is there;
`last_check` never goes back (70_reset_and_hazards.md section 3; exact arithmetic and backward time are the spec's own choice,
decision D22). The operations are those of the rational numbers. -/
def Obligations.GovernorConsultIsTokenBucket : Prop :=
  ∀ (s : State) (now : Millis),
    let refill := min (s.params.govRate : Rat)
      (s.allowance + max 0 (now - s.lastCheck) * (s.params.govRate : Rat) / (s.params.govPeriod.val : Rat))
    ((s.governorConsult now).1 = true ↔ 1 ≤ refill) ∧
    (s.governorConsult now).2 =
      { s with allowance := if 1 ≤ refill then refill - 1 else refill, lastCheck := max s.lastCheck now }

/-- At 14 per 100 ms and from an empty bucket, a consult after a wait d is granted iff d ≥ 50/7 ms, and then no second consult
at the same time is, unless d ≥ 100/7 ms (70_reset_and_hazards.md section 3, refill arithmetic the spec marks as derived). -/
def Obligations.OneTokenAccruesInFiftySevenths : Prop :=
  ∀ (s : State) (d : Rat), s.params.govRate = 14 → s.params.govPeriod.val = 100 → s.allowance = 0 → 0 ≤ d →
    ((s.governorConsult (s.lastCheck + d)).1 = true ↔ 50 / 7 ≤ d) ∧
    (50 / 7 ≤ d →
      (((s.governorConsult (s.lastCheck + d)).2.governorConsult (s.lastCheck + d)).1 = true ↔ 100 / 7 ≤ d))

/-- Over an interval of length T that starts with allowance A, at most ⌊A + T·GOV_RATE/GOV_PERIOD⌋ consults are granted, however
many there are and in whatever order their timestamps come (70_reset_and_hazards.md section 3, a bound the spec marks as
derived). -/
def Obligations.GrantsAreBounded : Prop :=
  ∀ (s : State) (T : Rat) (times : List Millis), s.governorBounded → 0 ≤ T → (∀ now ∈ times, now ≤ s.lastCheck + T) →
    (grantsOver s times : Int) ≤ ⌊s.allowance + T * (s.params.govRate : Rat) / (s.params.govPeriod.val : Rat)⌋

/-- The governor decides only when an instruction runs, never what it computes: a granted tick's instruction gives the same state
from any values of `allowance` and `last_check`, those two aside (70_reset_and_hazards.md section 3, which the spec marks as
derived). -/
def Obligations.GovernorNeverReachesResults : Prop :=
  (∀ (s : State) (a : Rat) (c : Millis),
    (s.setGovernor a c).runInstruction = mapNext (fun t => t.setGovernor a c) s.runInstruction) ∧
  ∀ (i : Instr) (s : State) (a : Rat) (c : Millis),
    exec i (s.setGovernor a c) = mapNext (fun t => t.setGovernor a c) (exec i s)

/-! ## The host (60_exceptions.md section 4, 70_reset_and_hazards.md sections 1 and 2) -/

/-- The host's reset, from any state, leaves every field at its value of 70_reset_and_hazards.md section 1 and the key slot alone.
(The display, governor, cadence, audio, status and key slot values are the spec's own choice, decisions D16 and D17; the font
is the parameter.) -/
def Obligations.HostResetValues : Prop :=
  ∀ (s : State) (now : Millis) (q : List HostEvent), s.hostQueue = .reset now :: q →
    ∃ t, step s = .next t ∧ (∀ r, t.reg r = 0) ∧ t.i = 0 ∧ t.pc = 0x200 ∧ t.sp = 0 ∧ (∀ k : Fin 16, t.stack[k] = 0) ∧
      t.dt = 0 ∧ t.st = 0 ∧ t.rng = s.params.rngSeed ∧ (∀ c r, t.pixel c r = false) ∧
      (∀ a, (h : a < 80) → t.readByte a = s.params.font[a]) ∧ (∀ a, 80 ≤ a → a < 4096 → t.readByte a = 0) ∧
      t.allowance = (s.params.govRate : Rat) ∧ t.lastCheck = now ∧ t.tc = 0 ∧ t.playing = false ∧ t.runState = .idle ∧
      t.waitX = 0 ∧ t.status = ⟨.idle, 0, 0, 0⟩ ∧ t.keySlot = s.keySlot ∧ t.params = s.params ∧ t.hostQueue = q

/-- The state after power-on is what a reset at time 0 leaves of itself, with an empty key slot and the spec's defaults of GOV_RATE,
GOV_PERIOD, TIMER_DIVIDER, DECODE_5_9_STRICT and FONT. The time 0 is the model's choice (log entry 7); the glyph bytes at 0..79, 0 to F, are
the spec's table from general knowledge, PRESUMED (log entry 5). -/
def Obligations.PowerOnIsReset : Prop :=
  State.reset = State.reset.hostReset 0 ∧ State.reset.keySlot = none ∧ State.reset.params.govRate = 14 ∧
    State.reset.params.govPeriod.val = 100 ∧ State.reset.params.timerDivider.val = 5 ∧
    State.reset.params.decode59Strict = true ∧
    State.reset.readBytes 0 40 =
      [0xF0, 0x90, 0x90, 0x90, 0xF0, 0x20, 0x60, 0x20, 0x20, 0x70, 0xF0, 0x10, 0xF0, 0x80, 0xF0, 0xF0, 0x10, 0xF0, 0x10, 0xF0,
       0x90, 0x90, 0xF0, 0x10, 0x10, 0xF0, 0x80, 0xF0, 0x10, 0xF0, 0xF0, 0x80, 0xF0, 0x90, 0xF0, 0xF0, 0x10, 0x20, 0x40, 0x40] ∧
    State.reset.readBytes 40 40 =
      [0xF0, 0x90, 0xF0, 0x90, 0xF0, 0xF0, 0x90, 0xF0, 0x10, 0xF0, 0xF0, 0x90, 0xF0, 0x90, 0x90, 0xE0, 0x90, 0xE0, 0x90, 0xE0,
       0xF0, 0x80, 0x80, 0x80, 0xF0, 0xE0, 0x90, 0x90, 0x90, 0xE0, 0xF0, 0x80, 0xF0, 0x80, 0xF0, 0xF0, 0x80, 0xF0, 0x80, 0x80]

/-- A ROM load in IDLE of at most 3584 bytes copies them to 0x200 and up, writes no other byte, and puts the core in RUN; a longer
one is reported, writes nothing and leaves IDLE; outside IDLE a load is ignored (70_reset_and_hazards.md section 2; rejection and
the IDLE test are the spec's own choice, decision D23; the report's field is the model's own, log entry 8). -/
def Obligations.RomLoadCopiesOrIsRefused : Prop :=
  ∀ (s : State) (bytes : List Byte) (q : List HostEvent), s.hostQueue = .loadRom bytes :: q → s.memWf →
    (s.runState = .idle → bytes.length ≤ 3584 → ∃ t, step s = .next t ∧
      (∀ j, (h : j < bytes.length) → t.readByte (0x200 + j) = bytes[j]) ∧
      (∀ a, a < 0x200 ∨ 0x200 + bytes.length ≤ a → t.readByte a = s.readByte a) ∧
      t = { s with mem := t.mem, runState := .run, loadFailed := false, hostQueue := q }) ∧
    (s.runState = .idle → 3584 < bytes.length → step s = .next { s with loadFailed := true, hostQueue := q }) ∧
    (s.runState ≠ .idle → step s = .next { s with hostQueue := q })

/-- A key press is stored into the slot over what it held, in any run state, and touches nothing else (60_exceptions.md
section 4). -/
def Obligations.KeyPressOverwritesSlot : Prop :=
  ∀ (s : State) (k : Nibble) (q : List HostEvent), s.hostQueue = .keyPress k :: q →
    step s = .next { s with keySlot := some k, hostQueue := q }

/-! ## Faults (60_exceptions.md) -/

/-- Fault entry records the code, PC and the address, enters FAULT and stops the tone, nothing more; the status interface reads
the codes 1 to 5 (60_exceptions.md section 1; the fields and codes are the spec's own choice, decisions D13 and D14). -/
def Obligations.FaultEntryRecords : Prop :=
  (∀ (s : State) (code : FaultCode) (addr : Nat), addr < 65536 → EntersFault s (s.raiseFault code addr) code addr) ∧
  ∀ (s : State) (addr : Nat),
    (s.raiseFault .addrFetch addr).status = ⟨.fault, 1, s.pc, BitVec.ofNat 16 addr⟩ ∧
    (s.raiseFault .addrRead addr).status = ⟨.fault, 2, s.pc, BitVec.ofNat 16 addr⟩ ∧
    (s.raiseFault .addrWrite addr).status = ⟨.fault, 3, s.pc, BitVec.ofNat 16 addr⟩ ∧
    (s.raiseFault .stackOverflow addr).status = ⟨.fault, 4, s.pc, BitVec.ofNat 16 addr⟩ ∧
    (s.raiseFault .stackUnderflow addr).status = ⟨.fault, 5, s.pc, BitVec.ofNat 16 addr⟩

/-- Each instruction can raise only the fault its rule lists, and raising it makes no architectural change
(60_exceptions.md section 1; precision is the spec's own choice, decision D13, and the list is marked derived). -/
def Obligations.ExecFaultsAreListedAndPrecise : Prop :=
  ∀ (i : Instr) (s t : State), exec i s = .next t → s.runState ≠ .fault → t.runState = .fault →
    ∃ code addr, mayRaise i code ∧ EntersFault s t code addr

/-- A step that ends in FAULT has changed nothing but the fault record, `playing`, the governor's fields and the model's host
fields: the fault is precise and is not counted (60_exceptions.md section 1; the spec's own choice, decision D13). -/
def Obligations.FaultingStepIsPrecise : Prop :=
  ∀ s t : State, step s = .next t → s.runState ≠ .fault → t.runState = .fault →
    t.playing = false ∧ t.faultPc = s.pc ∧ t.faultCode ≠ .noFault ∧
    t = { s with
          faultCode := t.faultCode, faultPc := t.faultPc, faultAddr := t.faultAddr, runState := .fault, playing := false,
          allowance := t.allowance, lastCheck := t.lastCheck, hostQueue := t.hostQueue, hostClock := t.hostClock }

/-- There is no return from a fault. In FAULT a tick changes nothing, and only the host's reset leaves FAULT; a press still reaches
the key slot, and a load is ignored (60_exceptions.md section 1, 70_reset_and_hazards.md section 2; that a load outside IDLE is
ignored is the spec's own choice, decision D23, and so is the quiescent FAULT, decision D13; log entry 11). -/
def Obligations.OnlyResetLeavesFault : Prop :=
  ∀ s t : State, s.runState = .fault → step s = .next t →
    (t.runState = .fault ∧
      t = { s with keySlot := t.keySlot, hostQueue := t.hostQueue, hostClock := t.hostClock } ∧
      (t.keySlot ≠ s.keySlot → ∃ k q, s.hostQueue = .keyPress k :: q)) ∨
    (t.runState = .idle ∧ ∃ now q, s.hostQueue = .reset now :: q)

/-- Nothing stops the model: every step, and every instruction in every state, answers a next state (an unknown opcode "never
terminates execution", 30_encoding.md section 3; a core fault is a next state, log entry 1). -/
def Obligations.CoreAlwaysAnswersNext : Prop :=
  (∀ s, ∃ t, step s = .next t) ∧ ∀ i s, ∃ t, exec i s = .next t

/-! ## Who writes what (10_state.md) -/

/-- R22: the instructions that write V registers, and the registers each may write; no other instruction writes one. -/
def Obligations.OnlyListedInstructionsWriteV : Prop :=
  ∀ (i : Instr) (s t : State), exec i s = .next t → ∀ r, t.reg r ≠ s.reg r → mayWriteReg i r

/-- Every other piece of state has the writers that 10_state.md names (sections 2 to 10): I, PC (by 2, but for skips, jumps, calls and
returns), stack, SP, DT, ST, the display, memory, the generator, the key slot, `playing` and the fault record (a fault the
instruction's rule lists), run_state (that fault, or a key wait) and wait_x. No instruction touches the governor, the cadence
counter, the parameters or the model's own fields (log entries 2, 3, 4 and 8). Decisions D13, D14, D21, D24, D25, D26 and D31 are
among the rules; that a fault writes the record is log entry 1's next state. -/
def Obligations.StateHasItsListedWriters : Prop :=
  ∀ (i : Instr) (s t : State), exec i s = .next t →
    (t.i ≠ s.i → (∃ n, i = .ldI n) ∨ (∃ x, i = .addI x) ∨ ∃ x, i = .ldF x) ∧
    (t.pc ≠ s.pc → PcBy s t 2 ∨ (skips i ∧ PcBy s t 4) ∨ setsPc i) ∧
    (t.stack ≠ s.stack → ∃ n, i = .call n) ∧ (t.sp ≠ s.sp → i = .ret ∨ ∃ n, i = .call n) ∧
    (t.dt ≠ s.dt → ∃ x, i = .ldDtVx x) ∧ (t.st ≠ s.st → ∃ x, i = .ldStVx x) ∧
    (t.disp ≠ s.disp → i = .cls ∨ ∃ x y n, i = .drw x y n) ∧
    (t.mem ≠ s.mem → (∃ x, i = .ldB x) ∨ ∃ x, i = .ldMemVx x) ∧ (t.rng ≠ s.rng → ∃ x kk, i = .rnd x kk) ∧
    (t.keySlot ≠ s.keySlot → (∃ x, i = .skp x) ∨ (∃ x, i = .sknp x) ∨ ∃ x, i = .ldVxK x) ∧
    (t.waitX ≠ s.waitX → ∃ x, i = .ldVxK x) ∧
    (t.runState ≠ s.runState →
      ((∃ x, i = .ldVxK x) ∧ t.runState = .waitKey) ∨ (mayRaise i t.faultCode ∧ t.runState = .fault)) ∧
    (t.playing ≠ s.playing → mayRaise i t.faultCode ∧ t.runState = .fault ∧ t.playing = false) ∧
    (t.faultCode ≠ s.faultCode ∨ t.faultPc ≠ s.faultPc ∨ t.faultAddr ≠ s.faultAddr →
      mayRaise i t.faultCode ∧ t.runState = .fault ∧ t.faultPc = s.pc) ∧
    t.allowance = s.allowance ∧ t.lastCheck = s.lastCheck ∧ t.tc = s.tc ∧ t.params = s.params ∧
    t.hostQueue = s.hostQueue ∧ t.hostClock = s.hostClock ∧ t.loadFailed = s.loadFailed

/-! ## Control transfer (41_control_flow.md) -/

/-- SYS: any 0nnn but 00E0 and 00EE, ignored (41_control_flow.md; that it is the 35th operation is the spec's own choice,
decision D8). -/
def Obligations.SysIsIgnored : Prop :=
  (∀ (strict : Bool) (op : Word), op &&& 0xF000#16 = 0x0000#16 → op ≠ 0x00E0#16 → op ≠ 0x00EE#16 →
    decode strict op = .instr (.sys (fieldNNN op))) ∧
  ∀ (nnn : Addr) (s : State), ∃ t, exec (.sys nnn) s = .next t ∧ PcBy s t 2 ∧ OnlyPc s t ∧ SameBytes s t

/-- R111: RET, whole: encoding, the pop, the kept entry, the underflow that changes nothing, and after a CALL the resumption at the
instruction after it. -/
def Obligations.RetPopsOrUnderflows : Prop :=
  (∀ strict : Bool, decode strict 0x00EE#16 = .instr .ret) ∧
  (∀ (nnn : Addr) (s : State), s.sp.val < 16 →
    ∃ t u, exec (.call nnn) s = .next t ∧ exec .ret t = .next u ∧ PcBy s u 2) ∧
  ∀ s : State, ∃ t, exec .ret s = .next t ∧
    if h : 0 < s.sp.val then
      t.sp.val = s.sp.val - 1 ∧ t.pc.toNat = ((s.stack[s.sp.val - 1]'(by omega)).toNat + 2) % 65536 ∧
      t = { s with sp := t.sp, pc := t.pc } ∧ SameBytes s t ∧ HighPcFetchFaults t
    else EntersFault s t .stackUnderflow 0

/-- R113: CALL addr, whole: encoding, the push of the CALL's own address, and the overflow that changes nothing. -/
def Obligations.CallPushesOrOverflows : Prop :=
  (∀ (strict : Bool) (op : Word), op &&& 0xF000#16 = 0x2000#16 → decode strict op = .instr (.call (fieldNNN op))) ∧
  ∀ (nnn : Addr) (s : State), ∃ t, exec (.call nnn) s = .next t ∧
    if h : s.sp.val < 16 then
      t.stack[s.sp.val] = s.pc ∧ (∀ k : Fin 16, k.val ≠ s.sp.val → t.stack[k] = s.stack[k]) ∧
      t.sp.val = s.sp.val + 1 ∧ t.pc.toNat = nnn.toNat ∧ t = { s with stack := t.stack, sp := t.sp, pc := t.pc } ∧
      SameBytes s t ∧ HighPcFetchFaults t
    else EntersFault s t .stackOverflow 0

/-- A RET that follows a CALL, wherever PC has gone meanwhile, resumes at the instruction after the CALL with SP as before it
(41_control_flow.md, RET's corner cases). -/
def Obligations.CallThenRetReturns : Prop :=
  ∀ (nnn : Addr) (s : State), s.sp.val < 16 →
    ∃ t, exec (.call nnn) s = .next t ∧ ∀ p : Word, ∃ u, exec .ret { t with pc := p } = .next u ∧ PcBy s u 2 ∧
      u.sp = s.sp ∧ u = { s with stack := t.stack, pc := u.pc }

/-- R114 and R115: SE and SNE with an immediate, whole: the skip compares as the rule says and writes PC only. -/
def Obligations.SkipsOnImmediate : Prop :=
  (∀ (strict : Bool) (op : Word), op &&& 0xF000#16 = 0x3000#16 →
    decode strict op = .instr (.seImm (fieldX op) (fieldKK op))) ∧
  (∀ (strict : Bool) (op : Word), op &&& 0xF000#16 = 0x4000#16 →
    decode strict op = .instr (.sneImm (fieldX op) (fieldKK op))) ∧
  ∀ (x : Reg) (kk : Byte) (s : State),
    (∃ t, exec (.seImm x kk) s = .next t ∧ PcBy s t (if (s.reg x).toNat = kk.toNat then 4 else 2) ∧ OnlyPc s t ∧
      SameBytes s t ∧ HighPcFetchFaults t) ∧
    ∃ t, exec (.sneImm x kk) s = .next t ∧ PcBy s t (if (s.reg x).toNat = kk.toNat then 2 else 4) ∧ OnlyPc s t ∧
      SameBytes s t ∧ HighPcFetchFaults t

/-- R116 and R117: SE and SNE with registers, whole, with the wider mask when DECODE_5_9_STRICT is false. -/
def Obligations.SkipsOnRegisters : Prop :=
  (∀ (strict : Bool) (op : Word), op &&& 0xF00F#16 = 0x5000#16 →
    decode strict op = .instr (.seReg (fieldX op) (fieldY op))) ∧
  (∀ op : Word, op &&& 0xF000#16 = 0x5000#16 → decode false op = .instr (.seReg (fieldX op) (fieldY op))) ∧
  (∀ (strict : Bool) (op : Word), op &&& 0xF00F#16 = 0x9000#16 →
    decode strict op = .instr (.sneReg (fieldX op) (fieldY op))) ∧
  (∀ op : Word, op &&& 0xF000#16 = 0x9000#16 → decode false op = .instr (.sneReg (fieldX op) (fieldY op))) ∧
  ∀ (x y : Reg) (s : State),
    (∃ t, exec (.seReg x y) s = .next t ∧ PcBy s t (if (s.reg x).toNat = (s.reg y).toNat then 4 else 2) ∧ OnlyPc s t ∧
      SameBytes s t ∧ HighPcFetchFaults t) ∧
    ∃ t, exec (.sneReg x y) s = .next t ∧ PcBy s t (if (s.reg x).toNat = (s.reg y).toNat then 2 else 4) ∧ OnlyPc s t ∧
      SameBytes s t ∧ HighPcFetchFaults t

/-- R112 and R118: JP addr and JP V0,addr, whole: PC takes nnn, or the exact sum of nnn and V0, which does not wrap; a high target
faults at the next fetch only. -/
def Obligations.JumpsSetPc : Prop :=
  (∀ (strict : Bool) (op : Word), op &&& 0xF000#16 = 0x1000#16 → decode strict op = .instr (.jp (fieldNNN op))) ∧
  (∀ (strict : Bool) (op : Word), op &&& 0xF000#16 = 0xB000#16 → decode strict op = .instr (.jpV0 (fieldNNN op))) ∧
  ∀ (nnn : Addr) (s : State),
    (∃ t, exec (.jp nnn) s = .next t ∧ t.pc.toNat = nnn.toNat ∧ OnlyPc s t ∧ SameBytes s t ∧ HighPcFetchFaults t) ∧
    ∃ t, exec (.jpV0 nnn) s = .next t ∧ t.pc.toNat = nnn.toNat + (s.reg 0).toNat ∧ OnlyPc s t ∧ SameBytes s t ∧
      HighPcFetchFaults t

/-! ## Registers and ALU (42_register_alu.md) -/

/-- R132 and R134: LD Vx,byte and LD Vx,Vy, whole. -/
def Obligations.LoadsCopyIntoVx : Prop :=
  (∀ (strict : Bool) (op : Word), op &&& 0xF000#16 = 0x6000#16 →
    decode strict op = .instr (.ldImm (fieldX op) (fieldKK op))) ∧
  (∀ (strict : Bool) (op : Word), op &&& 0xF00F#16 = 0x8000#16 →
    decode strict op = .instr (.ldReg (fieldX op) (fieldY op))) ∧
  (∀ (x : Reg) (kk : Byte) (s : State), ∃ t, exec (.ldImm x kk) s = .next t ∧ t.reg x = kk ∧
    (∀ r, r ≠ x → t.reg r = s.reg r) ∧ PcBy s t 2 ∧ OnlyRegsPc s t ∧ SameBytes s t) ∧
  ∀ (x y : Reg) (s : State), ∃ t, exec (.ldReg x y) s = .next t ∧ t.reg x = s.reg y ∧
    (∀ r, r ≠ x → t.reg r = s.reg r) ∧ PcBy s t 2 ∧ OnlyRegsPc s t ∧ SameBytes s t

/-- R133: ADD Vx,byte, whole: the wrapped sum, and no flag. -/
def Obligations.AddImmediateWrapsWithoutFlag : Prop :=
  (∀ (strict : Bool) (op : Word), op &&& 0xF000#16 = 0x7000#16 →
    decode strict op = .instr (.addImm (fieldX op) (fieldKK op))) ∧
  ∀ (x : Reg) (kk : Byte) (s : State), ∃ t, exec (.addImm x kk) s = .next t ∧
    (t.reg x).toNat = ((s.reg x).toNat + kk.toNat) % 256 ∧ (∀ r, r ≠ x → t.reg r = s.reg r) ∧ PcBy s t 2 ∧
    OnlyRegsPc s t ∧ SameBytes s t

/-- R135, R136 and R137: OR, AND and XOR, whole: bit by bit, and no flag. -/
def Obligations.LogicIsBitwiseWithoutFlag : Prop :=
  (∀ (strict : Bool) (op : Word), op &&& 0xF00F#16 = 0x8001#16 →
    decode strict op = .instr (.orReg (fieldX op) (fieldY op))) ∧
  (∀ (strict : Bool) (op : Word), op &&& 0xF00F#16 = 0x8002#16 →
    decode strict op = .instr (.andReg (fieldX op) (fieldY op))) ∧
  (∀ (strict : Bool) (op : Word), op &&& 0xF00F#16 = 0x8003#16 →
    decode strict op = .instr (.xorReg (fieldX op) (fieldY op))) ∧
  ∀ (x y : Reg) (s : State),
    (∃ t, exec (.orReg x y) s = .next t ∧
      (∀ b : Nat, (t.reg x).getLsbD b = ((s.reg x).getLsbD b || (s.reg y).getLsbD b)) ∧
      (∀ r, r ≠ x → t.reg r = s.reg r) ∧ PcBy s t 2 ∧ OnlyRegsPc s t ∧ SameBytes s t) ∧
    (∃ t, exec (.andReg x y) s = .next t ∧
      (∀ b : Nat, (t.reg x).getLsbD b = ((s.reg x).getLsbD b && (s.reg y).getLsbD b)) ∧
      (∀ r, r ≠ x → t.reg r = s.reg r) ∧ PcBy s t 2 ∧ OnlyRegsPc s t ∧ SameBytes s t) ∧
    ∃ t, exec (.xorReg x y) s = .next t ∧
      (∀ b : Nat, (t.reg x).getLsbD b = ((s.reg x).getLsbD b ^^ (s.reg y).getLsbD b)) ∧
      (∀ r, r ≠ x → t.reg r = s.reg r) ∧ PcBy s t 2 ∧ OnlyRegsPc s t ∧ SameBytes s t

/-- ADD Vx,Vy: V[x] takes the sum mod 256; VF takes the carry of the operands from before the instruction, but for x = F, where the
sum stays (42_register_alu.md section 3; the carry rule and the order are the spec's own choice, decisions D6 and D5). -/
def Obligations.AddSetsCarry : Prop :=
  (∀ (strict : Bool) (op : Word), op &&& 0xF00F#16 = 0x8004#16 →
    decode strict op = .instr (.addReg (fieldX op) (fieldY op))) ∧
  ∀ (x y : Reg) (s : State), ∃ t, exec (.addReg x y) s = .next t ∧
    (t.reg x).toNat = ((s.reg x).toNat + (s.reg y).toNat) % 256 ∧
    (x ≠ 15 → (t.reg 15).toNat = if 256 ≤ (s.reg x).toNat + (s.reg y).toNat then 1 else 0) ∧
    (∀ r, r ≠ x → r ≠ 15 → t.reg r = s.reg r) ∧ PcBy s t 2 ∧ OnlyRegsPc s t ∧ SameBytes s t

/-- R139 and R141: SUB and SUBN, whole: the wrapped difference, and VF = 1 iff the minuend is strictly greater, but for x = F, where
the difference stays (their pseudocode's order, VF first; R131 gives it as decision D5). -/
def Obligations.SubtractionsSetStrictGreater : Prop :=
  (∀ (strict : Bool) (op : Word), op &&& 0xF00F#16 = 0x8005#16 →
    decode strict op = .instr (.sub (fieldX op) (fieldY op))) ∧
  (∀ (strict : Bool) (op : Word), op &&& 0xF00F#16 = 0x8007#16 →
    decode strict op = .instr (.subn (fieldX op) (fieldY op))) ∧
  ∀ (x y : Reg) (s : State),
    (∃ t, exec (.sub x y) s = .next t ∧
      (t.reg x).toNat = ((s.reg x).toNat + 256 - (s.reg y).toNat) % 256 ∧
      (x ≠ 15 → (t.reg 15).toNat = if (s.reg y).toNat < (s.reg x).toNat then 1 else 0) ∧
      (∀ r, r ≠ x → r ≠ 15 → t.reg r = s.reg r) ∧ PcBy s t 2 ∧ OnlyRegsPc s t ∧ SameBytes s t) ∧
    ∃ t, exec (.subn x y) s = .next t ∧
      (t.reg x).toNat = ((s.reg y).toNat + 256 - (s.reg x).toNat) % 256 ∧
      (x ≠ 15 → (t.reg 15).toNat = if (s.reg x).toNat < (s.reg y).toNat then 1 else 0) ∧
      (∀ r, r ≠ x → r ≠ 15 → t.reg r = s.reg r) ∧ PcBy s t 2 ∧ OnlyRegsPc s t ∧ SameBytes s t

/-- R140 and R142: SHR and SHL, whole: V[x] by one place, VF the bit shifted out, but for x = F, where the result stays; the y field
is ignored. -/
def Obligations.ShiftsMoveVxByOne : Prop :=
  (∀ (strict : Bool) (op : Word), op &&& 0xF00F#16 = 0x8006#16 →
    decode strict op = .instr (.shr (fieldX op) (fieldY op))) ∧
  (∀ (strict : Bool) (op : Word), op &&& 0xF00F#16 = 0x800E#16 →
    decode strict op = .instr (.shl (fieldX op) (fieldY op))) ∧
  ∀ (x y : Reg) (s : State),
    (∃ t, exec (.shr x y) s = .next t ∧ (∀ y', exec (.shr x y') s = .next t) ∧
      (t.reg x).toNat = (s.reg x).toNat / 2 ∧ (x ≠ 15 → (t.reg 15).toNat = (s.reg x).toNat % 2) ∧
      (∀ r, r ≠ x → r ≠ 15 → t.reg r = s.reg r) ∧ PcBy s t 2 ∧ OnlyRegsPc s t ∧ SameBytes s t) ∧
    ∃ t, exec (.shl x y) s = .next t ∧ (∀ y', exec (.shl x y') s = .next t) ∧
      (t.reg x).toNat = (s.reg x).toNat * 2 % 256 ∧ (x ≠ 15 → (t.reg 15).toNat = (s.reg x).toNat / 128) ∧
      (∀ r, r ≠ x → r ≠ 15 → t.reg r = s.reg r) ∧ PcBy s t 2 ∧ OnlyRegsPc s t ∧ SameBytes s t

/-- RND: one draw, whatever kk is, and V[x] takes the drawn byte under the mask; kk = 0 gives 0. The byte is the generator's, a free
value (42_register_alu.md section 4; the generator is open, decision D12, log entry 6). -/
def Obligations.RndDrawsOnceUnderMask : Prop :=
  (∀ (strict : Bool) (op : Word), op &&& 0xF000#16 = 0xC000#16 →
    decode strict op = .instr (.rnd (fieldX op) (fieldKK op))) ∧
  ∀ (x : Reg) (kk : Byte) (s : State), ∃ t, exec (.rnd x kk) s = .next t ∧
    (∀ b : Nat, (t.reg x).getLsbD b = ((Config.rngNext s.rng).1.getLsbD b && kk.getLsbD b)) ∧
    (kk = 0 → t.reg x = 0) ∧ t.rng = (Config.rngNext s.rng).2 ∧ (∀ r, r ≠ x → t.reg r = s.reg r) ∧ PcBy s t 2 ∧
    t = { s with v := t.v, pc := t.pc, rng := t.rng } ∧ SameBytes s t

/-! ## Index register and memory transfers (43_index_memory.md) -/

/-- R160 and R162: LD I,addr and LD F,Vx, whole: I takes nnn, or five times the whole V[x]. -/
def Obligations.LoadsOfI : Prop :=
  (∀ (strict : Bool) (op : Word), op &&& 0xF000#16 = 0xA000#16 → decode strict op = .instr (.ldI (fieldNNN op))) ∧
  (∀ (strict : Bool) (op : Word), op &&& 0xF0FF#16 = 0xF029#16 → decode strict op = .instr (.ldF (fieldX op))) ∧
  (∀ (nnn : Addr) (s : State), ∃ t, exec (.ldI nnn) s = .next t ∧ t.i.toNat = nnn.toNat ∧ PcBy s t 2 ∧
    t = { s with i := t.i, pc := t.pc } ∧ SameBytes s t) ∧
  ∀ (x : Reg) (s : State), ∃ t, exec (.ldF x) s = .next t ∧ t.i.toNat = (s.reg x).toNat * 5 ∧ PcBy s t 2 ∧
    t = { s with i := t.i, pc := t.pc } ∧ SameBytes s t

/-- ADD I,Vx: mod 65536, no flag and no fault (43_index_memory.md section 1; the wrap is the spec's own choice, decision D4). -/
def Obligations.AddIWrapsAt65536 : Prop :=
  (∀ (strict : Bool) (op : Word), op &&& 0xF0FF#16 = 0xF01E#16 → decode strict op = .instr (.addI (fieldX op))) ∧
  ∀ (x : Reg) (s : State), ∃ t, exec (.addI x) s = .next t ∧ t.i.toNat = (s.i.toNat + (s.reg x).toNat) % 65536 ∧
    PcBy s t 2 ∧ t = { s with i := t.i, pc := t.pc } ∧ SameBytes s t

/-- R163: LD B,Vx, whole: the three decimal digits at I, I+1, I+2 and no other byte, or ADDR_WRITE with nothing written. The
memory's canonical form is a premise (every step keeps it). -/
def Obligations.BcdStoresThreeDigits : Prop :=
  (∀ (strict : Bool) (op : Word), op &&& 0xF0FF#16 = 0xF033#16 → decode strict op = .instr (.ldB (fieldX op))) ∧
  ∀ (x : Reg) (s : State), s.memWf → ∃ t, exec (.ldB x) s = .next t ∧
    if s.i.toNat + 2 < 4096 then
      (t.readByte s.i.toNat).toNat = (s.reg x).toNat / 100 ∧
      (t.readByte (s.i.toNat + 1)).toNat = (s.reg x).toNat / 10 % 10 ∧
      (t.readByte (s.i.toNat + 2)).toNat = (s.reg x).toNat % 10 ∧
      (∀ a, a < s.i.toNat ∨ s.i.toNat + 2 < a → t.readByte a = s.readByte a) ∧ PcBy s t 2 ∧
      t = { s with mem := t.mem, pc := t.pc }
    else EntersFault s t .addrWrite (max s.i.toNat 4096)

/-- LD [I],Vx: V0..Vx at I..I+x and no other byte, I unchanged, or ADDR_WRITE with nothing written (43_index_memory.md section 1;
that I is unchanged is the spec's own choice, decision D24). -/
def Obligations.StoreRegistersAtI : Prop :=
  (∀ (strict : Bool) (op : Word), op &&& 0xF0FF#16 = 0xF055#16 → decode strict op = .instr (.ldMemVx (fieldX op))) ∧
  ∀ (x : Reg) (s : State), s.memWf → ∃ t, exec (.ldMemVx x) s = .next t ∧
    if s.i.toNat + x.val < 4096 then
      (∀ k : Reg, k.val ≤ x.val → t.readByte (s.i.toNat + k.val) = s.reg k) ∧
      (∀ a, a < s.i.toNat ∨ s.i.toNat + x.val < a → t.readByte a = s.readByte a) ∧ PcBy s t 2 ∧
      t = { s with mem := t.mem, pc := t.pc }
    else EntersFault s t .addrWrite (max s.i.toNat 4096)

/-- R165: LD Vx,[I], whole: V0..Vx from I..I+x, the registers above x and I unchanged, or ADDR_READ with no register written. -/
def Obligations.LoadRegistersFromI : Prop :=
  (∀ (strict : Bool) (op : Word), op &&& 0xF0FF#16 = 0xF065#16 → decode strict op = .instr (.ldVxMem (fieldX op))) ∧
  ∀ (x : Reg) (s : State), ∃ t, exec (.ldVxMem x) s = .next t ∧
    if s.i.toNat + x.val < 4096 then
      (∀ k : Reg, k.val ≤ x.val → t.reg k = s.readByte (s.i.toNat + k.val)) ∧
      (∀ k : Reg, x.val < k.val → t.reg k = s.reg k) ∧ PcBy s t 2 ∧ OnlyRegsPc s t ∧ SameBytes s t
    else EntersFault s t .addrRead (max s.i.toNat 4096)

/-- R272: a byte that Fx33 or Fx55 writes is fetched as written by the very next instruction, the bytes it does not write as
before. -/
def Obligations.NextFetchSeesStore : Prop :=
  ∀ (i : Instr) (x : Reg) (ws : List Byte) (s : State),
    (i = .ldB x ∧ ws = bcdDigits (s.reg x)) ∨ (i = .ldMemVx x ∧ ws = s.regsUpTo x) →
    s.memWf → s.i.toNat + ws.length ≤ 4096 → s.pc.toNat + 3 < 4096 →
    let stored := fun a => if s.i.toNat ≤ a then (ws[a - s.i.toNat]?).getD (s.readByte a) else s.readByte a
    ∃ t, exec i s = .next t ∧
      t.fetch = .opcode (opcodeOfBytes (stored (s.pc.toNat + 2)) (stored (s.pc.toNat + 3)))

/-! ## Display (44_display.md) -/

/-- R181: CLS, whole: every pixel off, nothing else but PC. -/
def Obligations.ClsClearsEveryPixel : Prop :=
  (∀ strict : Bool, decode strict 0x00E0#16 = .instr .cls) ∧
  ∀ s : State, ∃ t, exec .cls s = .next t ∧ (∀ c r, t.pixel c r = false) ∧ PcBy s t 2 ∧
    t = { s with disp := t.disp, pc := t.pc } ∧ SameBytes s t

/-- DRW: every pixel of the grid is XORed with the sprite's bit over it and keeps its value elsewhere, so nothing wraps and clipped
pixels are dropped; VF = 1 iff a pixel that the sprite covers was on; a sprite read past memory, clipped rows included, faults
and draws nothing; n = 0 draws nothing with VF = 0 (44_display.md section 2; n = 0, the bounds check and the axes are the spec's
own choice, decisions D10 and D9). -/
def Obligations.DrwXorsSprite : Prop :=
  (∀ (strict : Bool) (op : Word), op &&& 0xF000#16 = 0xD000#16 →
    decode strict op = .instr (.drw (fieldX op) (fieldY op) (fieldN op))) ∧
  ∀ (x y : Reg) (n : Nibble) (s : State), ∃ t, exec (.drw x y n) s = .next t ∧
    if n.toNat = 0 ∨ s.i.toNat + n.toNat ≤ 4096 then
      (∀ c r, t.pixel c r = (s.pixel c r ^^ spriteCovers s (s.reg x).toNat (s.reg y).toNat n.toNat c r)) ∧
      ((∃ c r, spriteCovers s (s.reg x).toNat (s.reg y).toNat n.toNat c r = true ∧ s.pixel c r = true) →
        t.reg 15 = 1) ∧
      ((∀ c r, spriteCovers s (s.reg x).toNat (s.reg y).toNat n.toNat c r = true → s.pixel c r = false) →
        t.reg 15 = 0) ∧
      (∀ r, r ≠ 15 → t.reg r = s.reg r) ∧ PcBy s t 2 ∧ t = { s with v := t.v, disp := t.disp, pc := t.pc } ∧
      SameBytes s t
    else EntersFault s t .addrRead (max s.i.toNat 4096)

/-! ## Key input and timers (45_input_timers.md) -/

/-- R196 and R197: SKP and SKNP, whole: the slot is emptied in every case; SKP skips iff the slot held the key whose code is V[x],
SKNP iff it did not. -/
def Obligations.KeySkipsTakeTheKey : Prop :=
  (∀ (strict : Bool) (op : Word), op &&& 0xF0FF#16 = 0xE09E#16 → decode strict op = .instr (.skp (fieldX op))) ∧
  (∀ (strict : Bool) (op : Word), op &&& 0xF0FF#16 = 0xE0A1#16 → decode strict op = .instr (.sknp (fieldX op))) ∧
  ∀ (x : Reg) (s : State),
    (∃ t, exec (.skp x) s = .next t ∧
      ((∃ k, s.keySlot = some k ∧ k.toNat = (s.reg x).toNat) → PcBy s t 4) ∧
      ((∀ k, s.keySlot = some k → k.toNat ≠ (s.reg x).toNat) → PcBy s t 2) ∧
      t = { s with keySlot := none, pc := t.pc } ∧ SameBytes s t) ∧
    ∃ t, exec (.sknp x) s = .next t ∧
      ((∃ k, s.keySlot = some k ∧ k.toNat = (s.reg x).toNat) → PcBy s t 2) ∧
      ((∀ k, s.keySlot = some k → k.toNat ≠ (s.reg x).toNat) → PcBy s t 4) ∧
      t = { s with keySlot := none, pc := t.pc } ∧ SameBytes s t

/-- LD Vx,K: with a key in the slot, V[x] takes it, the slot is emptied and PC moves on; with none the core waits, PC unchanged
(45_input_timers.md section 2; polling first is the spec's own choice, decision D21). -/
def Obligations.KeyLoadTakesOrWaits : Prop :=
  (∀ (strict : Bool) (op : Word), op &&& 0xF0FF#16 = 0xF00A#16 → decode strict op = .instr (.ldVxK (fieldX op))) ∧
  ∀ (x : Reg) (s : State),
    (∀ k, s.keySlot = some k → ∃ t, exec (.ldVxK x) s = .next t ∧ (t.reg x).toNat = k.toNat ∧
      (∀ r, r ≠ x → t.reg r = s.reg r) ∧ PcBy s t 2 ∧ t = { s with v := t.v, keySlot := none, pc := t.pc } ∧
      SameBytes s t) ∧
    (s.keySlot = none → exec (.ldVxK x) s = .next { s with waitX := x, runState := .waitKey })

/-- R200 and R201: LD Vx,DT and LD DT,Vx, whole: the value read is DT before the instruction's own timer event; a load leaves the
cadence counter, and a timer event at its completion takes 1 from the loaded value. -/
def Obligations.DelayTimerAccess : Prop :=
  (∀ (strict : Bool) (op : Word), op &&& 0xF0FF#16 = 0xF007#16 → decode strict op = .instr (.ldVxDt (fieldX op))) ∧
  (∀ (strict : Bool) (op : Word), op &&& 0xF0FF#16 = 0xF015#16 → decode strict op = .instr (.ldDtVx (fieldX op))) ∧
  ∀ (x : Reg) (s : State),
    (∃ t, exec (.ldVxDt x) s = .next t ∧ t.reg x = s.dt ∧ (∀ r, r ≠ x → t.reg r = s.reg r) ∧ PcBy s t 2 ∧
      OnlyRegsPc s t ∧ SameBytes s t ∧ t.completeInstruction.reg x = s.dt) ∧
    ∃ t, exec (.ldDtVx x) s = .next t ∧ t.dt = s.reg x ∧ PcBy s t 2 ∧ t = { s with dt := t.dt, pc := t.pc } ∧
      SameBytes s t ∧ ((s.tc + 1) % s.params.timerDivider.val = 0 → t.completeInstruction.dt.toNat = (s.reg x).toNat - 1)

/-- LD ST,Vx: ST takes V[x] and nothing is signalled: `playing` is unchanged (45_input_timers.md section 2; the spec's own choice,
decision D20). -/
def Obligations.SoundTimerLoadSignalsNothing : Prop :=
  (∀ (strict : Bool) (op : Word), op &&& 0xF0FF#16 = 0xF018#16 → decode strict op = .instr (.ldStVx (fieldX op))) ∧
  ∀ (x : Reg) (s : State), ∃ t, exec (.ldStVx x) s = .next t ∧ t.st = s.reg x ∧ t.playing = s.playing ∧ PcBy s t 2 ∧
    t = { s with st := t.st, pc := t.pc } ∧ SameBytes s t ∧
    ((s.tc + 1) % s.params.timerDivider.val = 0 → s.reg x = 1 → t.completeInstruction.playing = false)

/-! ## The invariant -/

/-- The state after reset meets the invariant (70_reset_and_hazards.md section 1), whose clauses on the memory's canonical form, on
the load report and on the host's clock are about the model's own forms and fields (log entries 16, 8 and 3). -/
def Obligations.ResetMeetsInvariant : Prop := State.reset.Inv

/-- Every step keeps the invariant: memory in canonical form (the model's own form, log entry 16), allowance in [0, GOV_RATE], tc
below TIMER_DIVIDER, the fault record in agreement with the run state (decisions D13, D14 and D31), a key wait at a fetched
instruction (D21), IDLE as reset left it but for the key slot (D16, D17, D23), the host's clock (log entry 3) and the load
report, and a failed load in IDLE (the model's own field, log entry 8). The decisions are the spec's own choices (log entry
11). -/
def Obligations.StepKeepsInvariant : Prop := ∀ s t : State, s.Inv → step s = .next t → t.Inv
end

