-- ==== Sys2Proof/Laws/Decode.lean ====
section
/-! SUPPORT. The fields of an encoded word (R71, R84), the fields a row's mask fixes (R72), and the opcode of two bytes
(R54). -/

namespace Sys2Proof

/-! ### Words and fields as numbers -/

theorem encNNN_toNat (g : Nibble) (nnn : Addr) : (encNNN g nnn).toNat = g.toNat * 4096 + nnn.toNat := by
  show (g ++ nnn : BitVec (4 + 12)).toNat = _
  rw [BitVec.toNat_append, ← Nat.shiftLeft_add_eq_or_of_lt nnn.isLt, Nat.shiftLeft_eq]

theorem encXKK_toNat (g : Nibble) (x : Reg) (kk : Byte) :
    (encXKK g x kk).toNat = g.toNat * 4096 + x.val * 256 + kk.toNat := by
  show ((g ++ regBits x ++ kk : BitVec (4 + 4 + 8))).toNat = _
  have hx : (regBits x).toNat = x.val := rfl
  rw [BitVec.toNat_append, BitVec.toNat_append, ← Nat.shiftLeft_add_eq_or_of_lt kk.isLt,
    ← Nat.shiftLeft_add_eq_or_of_lt (regBits x).isLt, Nat.shiftLeft_eq, Nat.shiftLeft_eq, hx]
  omega

theorem encXYN_toNat (g : Nibble) (x y : Reg) (n : Nibble) :
    (encXYN g x y n).toNat = g.toNat * 4096 + x.val * 256 + y.val * 16 + n.toNat := by
  show ((g ++ regBits x ++ regBits y ++ n : BitVec (4 + 4 + 4 + 4))).toNat = _
  have hx : (regBits x).toNat = x.val := rfl
  have hy : (regBits y).toNat = y.val := rfl
  rw [BitVec.toNat_append, BitVec.toNat_append, BitVec.toNat_append, ← Nat.shiftLeft_add_eq_or_of_lt n.isLt,
    ← Nat.shiftLeft_add_eq_or_of_lt (regBits y).isLt, ← Nat.shiftLeft_add_eq_or_of_lt (regBits x).isLt,
    Nat.shiftLeft_eq, Nat.shiftLeft_eq, Nat.shiftLeft_eq, hx, hy]
  omega

theorem fieldG_toNat (op : Word) : (fieldG op).toNat = op.toNat / 4096 := by
  have := op.isLt
  simp [fieldG, Nat.shiftRight_eq_div_pow]
  omega

theorem fieldX_val (op : Word) : (fieldX op).val = op.toNat / 256 % 16 := by
  show (op.extractLsb' 8 4).toNat = _
  simp [Nat.shiftRight_eq_div_pow]

theorem fieldY_val (op : Word) : (fieldY op).val = op.toNat / 16 % 16 := by
  show (op.extractLsb' 4 4).toNat = _
  simp [Nat.shiftRight_eq_div_pow]

theorem fieldKK_toNat (op : Word) : (fieldKK op).toNat = op.toNat % 256 := by simp [fieldKK]

theorem fieldNNN_toNat (op : Word) : (fieldNNN op).toNat = op.toNat % 4096 := by simp [fieldNNN]

theorem fieldN_toNat (op : Word) : (fieldN op).toNat = op.toNat % 16 := by simp [fieldN]

/-! ### Fields of an encoded word -/

@[simp] theorem fieldG_encNNN (g : Nibble) (nnn : Addr) : fieldG (encNNN g nnn) = g := by
  have := nnn.isLt
  exact BitVec.eq_of_toNat_eq (by rw [fieldG_toNat, encNNN_toNat]; omega)

@[simp] theorem fieldNNN_encNNN (g : Nibble) (nnn : Addr) : fieldNNN (encNNN g nnn) = nnn := by
  have := nnn.isLt
  exact BitVec.eq_of_toNat_eq (by rw [fieldNNN_toNat, encNNN_toNat]; omega)

@[simp] theorem fieldG_encXKK (g : Nibble) (x : Reg) (kk : Byte) : fieldG (encXKK g x kk) = g := by
  have := x.isLt; have := kk.isLt
  exact BitVec.eq_of_toNat_eq (by rw [fieldG_toNat, encXKK_toNat]; omega)

@[simp] theorem fieldX_encXKK (g : Nibble) (x : Reg) (kk : Byte) : fieldX (encXKK g x kk) = x := by
  have := x.isLt; have := kk.isLt
  exact Fin.ext (by rw [fieldX_val, encXKK_toNat]; omega)

@[simp] theorem fieldKK_encXKK (g : Nibble) (x : Reg) (kk : Byte) : fieldKK (encXKK g x kk) = kk := by
  have := kk.isLt
  exact BitVec.eq_of_toNat_eq (by rw [fieldKK_toNat, encXKK_toNat]; omega)

@[simp] theorem fieldG_encXYN (g : Nibble) (x y : Reg) (n : Nibble) : fieldG (encXYN g x y n) = g := by
  have := x.isLt; have := y.isLt; have := n.isLt
  exact BitVec.eq_of_toNat_eq (by rw [fieldG_toNat, encXYN_toNat]; omega)

@[simp] theorem fieldX_encXYN (g : Nibble) (x y : Reg) (n : Nibble) : fieldX (encXYN g x y n) = x := by
  have := x.isLt; have := y.isLt; have := n.isLt
  exact Fin.ext (by rw [fieldX_val, encXYN_toNat]; omega)

@[simp] theorem fieldY_encXYN (g : Nibble) (x y : Reg) (n : Nibble) : fieldY (encXYN g x y n) = y := by
  have := y.isLt; have := n.isLt
  exact Fin.ext (by rw [fieldY_val, encXYN_toNat]; omega)

@[simp] theorem fieldN_encXYN (g : Nibble) (x y : Reg) (n : Nibble) : fieldN (encXYN g x y n) = n := by
  have := n.isLt
  exact BitVec.eq_of_toNat_eq (by rw [fieldN_toNat, encXYN_toNat]; omega)

/-! ### Words from their fields -/

/-- A word is its group and its address field. -/
theorem encNNN_fields (op : Word) : encNNN (fieldG op) (fieldNNN op) = op :=
  BitVec.eq_of_toNat_eq (by rw [encNNN_toNat, fieldG_toNat, fieldNNN_toNat]; omega)

/-- A word is its group, its x and its low byte. -/
theorem encXKK_fields (op : Word) : encXKK (fieldG op) (fieldX op) (fieldKK op) = op :=
  BitVec.eq_of_toNat_eq (by rw [encXKK_toNat, fieldG_toNat, fieldX_val, fieldKK_toNat]; omega)

/-- A word is its four nibbles. -/
theorem encXYN_fields (op : Word) : encXYN (fieldG op) (fieldX op) (fieldY op) (fieldN op) = op :=
  BitVec.eq_of_toNat_eq (by rw [encXYN_toNat, fieldG_toNat, fieldX_val, fieldY_val, fieldN_toNat]; omega)

/-! ### Masks (R72): a field that a mask covers is as the match gives it -/

theorem fieldG_of_mask {op mask m : Word} (h : op &&& mask = m) (hm : fieldG mask = 0xF#4) : fieldG op = fieldG m := by
  have : fieldG (op &&& mask) = fieldG op &&& fieldG mask := BitVec.extractLsb'_and
  rw [← h, this, hm]
  exact (BitVec.and_allOnes (x := fieldG op)).symm

theorem fieldN_of_mask {op mask m : Word} (h : op &&& mask = m) (hm : fieldN mask = 0xF#4) : fieldN op = fieldN m := by
  have : fieldN (op &&& mask) = fieldN op &&& fieldN mask := BitVec.extractLsb'_and
  rw [← h, this, hm]
  exact (BitVec.and_allOnes (x := fieldN op)).symm

theorem fieldKK_of_mask {op mask m : Word} (h : op &&& mask = m) (hm : fieldKK mask = 0xFF#8) :
    fieldKK op = fieldKK m := by
  have : fieldKK (op &&& mask) = fieldKK op &&& fieldKK mask := BitVec.extractLsb'_and
  rw [← h, this, hm]
  exact (BitVec.and_allOnes (x := fieldKK op)).symm

/-! ### The opcode of two bytes (R54) -/

theorem opcodeOfBytes_toNat (first second : Byte) :
    (opcodeOfBytes first second).toNat = first.toNat * 256 + second.toNat := by
  have h1 := first.isLt
  have h2 := second.isLt
  have : (first.toNat <<< 8) % 65536 = first.toNat <<< 8 := Nat.mod_eq_of_lt (by rw [Nat.shiftLeft_eq]; omega)
  simp [opcodeOfBytes, Nat.mod_eq_of_lt (show first.toNat < 65536 by omega),
    Nat.mod_eq_of_lt (show second.toNat < 65536 by omega), this]
  rw [← Nat.shiftLeft_add_eq_or_of_lt h2, Nat.shiftLeft_eq]

/-- A table word laid out as two bytes and read back is the word. -/
theorem opcodeOfBytes_tableBytes (nbits w : Nat) :
    opcodeOfBytes (tableBytes nbits w).1 (tableBytes nbits w).2 = tableWord nbits w := by
  apply BitVec.eq_of_toNat_eq
  have := (tableWord nbits w).isLt
  rw [opcodeOfBytes_toNat]
  simp [tableBytes, Nat.shiftRight_eq_div_pow]
  omega

end Sys2Proof
end

