-- ==== Sys2Proof/Laws/State.lean ====
section
/-! SUPPORT. One lemma per field per update of the state, each true by rfl, so that no proof unfolds a record update. -/

namespace Sys2Proof.Machine

/-! ### setReg -/

@[simp] theorem State.setReg_v (s : State) (x : Reg) (w : Byte) : (s.setReg x w).v = s.v.set x w := rfl
@[simp] theorem State.setReg_i (s : State) (x : Reg) (w : Byte) : (s.setReg x w).i = s.i := rfl
@[simp] theorem State.setReg_pc (s : State) (x : Reg) (w : Byte) : (s.setReg x w).pc = s.pc := rfl
@[simp] theorem State.setReg_sp (s : State) (x : Reg) (w : Byte) : (s.setReg x w).sp = s.sp := rfl
@[simp] theorem State.setReg_stack (s : State) (x : Reg) (w : Byte) : (s.setReg x w).stack = s.stack := rfl
@[simp] theorem State.setReg_dt (s : State) (x : Reg) (w : Byte) : (s.setReg x w).dt = s.dt := rfl
@[simp] theorem State.setReg_st (s : State) (x : Reg) (w : Byte) : (s.setReg x w).st = s.st := rfl
@[simp] theorem State.setReg_disp (s : State) (x : Reg) (w : Byte) : (s.setReg x w).disp = s.disp := rfl
@[simp] theorem State.setReg_mem (s : State) (x : Reg) (w : Byte) : (s.setReg x w).mem = s.mem := rfl
@[simp] theorem State.setReg_rng (s : State) (x : Reg) (w : Byte) : (s.setReg x w).rng = s.rng := rfl
@[simp] theorem State.setReg_allowance (s : State) (x : Reg) (w : Byte) : (s.setReg x w).allowance = s.allowance := rfl
@[simp] theorem State.setReg_lastCheck (s : State) (x : Reg) (w : Byte) : (s.setReg x w).lastCheck = s.lastCheck := rfl
@[simp] theorem State.setReg_tc (s : State) (x : Reg) (w : Byte) : (s.setReg x w).tc = s.tc := rfl
@[simp] theorem State.setReg_keySlot (s : State) (x : Reg) (w : Byte) : (s.setReg x w).keySlot = s.keySlot := rfl
@[simp] theorem State.setReg_playing (s : State) (x : Reg) (w : Byte) : (s.setReg x w).playing = s.playing := rfl
@[simp] theorem State.setReg_runState (s : State) (x : Reg) (w : Byte) : (s.setReg x w).runState = s.runState := rfl
@[simp] theorem State.setReg_waitX (s : State) (x : Reg) (w : Byte) : (s.setReg x w).waitX = s.waitX := rfl
@[simp] theorem State.setReg_faultCode (s : State) (x : Reg) (w : Byte) : (s.setReg x w).faultCode = s.faultCode := rfl
@[simp] theorem State.setReg_faultPc (s : State) (x : Reg) (w : Byte) : (s.setReg x w).faultPc = s.faultPc := rfl
@[simp] theorem State.setReg_faultAddr (s : State) (x : Reg) (w : Byte) : (s.setReg x w).faultAddr = s.faultAddr := rfl
@[simp] theorem State.setReg_loadFailed (s : State) (x : Reg) (w : Byte) : (s.setReg x w).loadFailed = s.loadFailed := rfl
@[simp] theorem State.setReg_params (s : State) (x : Reg) (w : Byte) : (s.setReg x w).params = s.params := rfl
@[simp] theorem State.setReg_hostQueue (s : State) (x : Reg) (w : Byte) : (s.setReg x w).hostQueue = s.hostQueue := rfl
@[simp] theorem State.setReg_hostClock (s : State) (x : Reg) (w : Byte) : (s.setReg x w).hostClock = s.hostClock := rfl

/-! ### setPc -/

@[simp] theorem State.setPc_v (s : State) (w : Word) : (s.setPc w).v = s.v := rfl
@[simp] theorem State.setPc_i (s : State) (w : Word) : (s.setPc w).i = s.i := rfl
@[simp] theorem State.setPc_pc (s : State) (w : Word) : (s.setPc w).pc = w := rfl
@[simp] theorem State.setPc_sp (s : State) (w : Word) : (s.setPc w).sp = s.sp := rfl
@[simp] theorem State.setPc_stack (s : State) (w : Word) : (s.setPc w).stack = s.stack := rfl
@[simp] theorem State.setPc_dt (s : State) (w : Word) : (s.setPc w).dt = s.dt := rfl
@[simp] theorem State.setPc_st (s : State) (w : Word) : (s.setPc w).st = s.st := rfl
@[simp] theorem State.setPc_disp (s : State) (w : Word) : (s.setPc w).disp = s.disp := rfl
@[simp] theorem State.setPc_mem (s : State) (w : Word) : (s.setPc w).mem = s.mem := rfl
@[simp] theorem State.setPc_rng (s : State) (w : Word) : (s.setPc w).rng = s.rng := rfl
@[simp] theorem State.setPc_allowance (s : State) (w : Word) : (s.setPc w).allowance = s.allowance := rfl
@[simp] theorem State.setPc_lastCheck (s : State) (w : Word) : (s.setPc w).lastCheck = s.lastCheck := rfl
@[simp] theorem State.setPc_tc (s : State) (w : Word) : (s.setPc w).tc = s.tc := rfl
@[simp] theorem State.setPc_keySlot (s : State) (w : Word) : (s.setPc w).keySlot = s.keySlot := rfl
@[simp] theorem State.setPc_playing (s : State) (w : Word) : (s.setPc w).playing = s.playing := rfl
@[simp] theorem State.setPc_runState (s : State) (w : Word) : (s.setPc w).runState = s.runState := rfl
@[simp] theorem State.setPc_waitX (s : State) (w : Word) : (s.setPc w).waitX = s.waitX := rfl
@[simp] theorem State.setPc_faultCode (s : State) (w : Word) : (s.setPc w).faultCode = s.faultCode := rfl
@[simp] theorem State.setPc_faultPc (s : State) (w : Word) : (s.setPc w).faultPc = s.faultPc := rfl
@[simp] theorem State.setPc_faultAddr (s : State) (w : Word) : (s.setPc w).faultAddr = s.faultAddr := rfl
@[simp] theorem State.setPc_loadFailed (s : State) (w : Word) : (s.setPc w).loadFailed = s.loadFailed := rfl
@[simp] theorem State.setPc_params (s : State) (w : Word) : (s.setPc w).params = s.params := rfl
@[simp] theorem State.setPc_hostQueue (s : State) (w : Word) : (s.setPc w).hostQueue = s.hostQueue := rfl
@[simp] theorem State.setPc_hostClock (s : State) (w : Word) : (s.setPc w).hostClock = s.hostClock := rfl

/-! ### setI -/

@[simp] theorem State.setI_v (s : State) (w : Word) : (s.setI w).v = s.v := rfl
@[simp] theorem State.setI_i (s : State) (w : Word) : (s.setI w).i = w := rfl
@[simp] theorem State.setI_pc (s : State) (w : Word) : (s.setI w).pc = s.pc := rfl
@[simp] theorem State.setI_sp (s : State) (w : Word) : (s.setI w).sp = s.sp := rfl
@[simp] theorem State.setI_stack (s : State) (w : Word) : (s.setI w).stack = s.stack := rfl
@[simp] theorem State.setI_dt (s : State) (w : Word) : (s.setI w).dt = s.dt := rfl
@[simp] theorem State.setI_st (s : State) (w : Word) : (s.setI w).st = s.st := rfl
@[simp] theorem State.setI_disp (s : State) (w : Word) : (s.setI w).disp = s.disp := rfl
@[simp] theorem State.setI_mem (s : State) (w : Word) : (s.setI w).mem = s.mem := rfl
@[simp] theorem State.setI_rng (s : State) (w : Word) : (s.setI w).rng = s.rng := rfl
@[simp] theorem State.setI_allowance (s : State) (w : Word) : (s.setI w).allowance = s.allowance := rfl
@[simp] theorem State.setI_lastCheck (s : State) (w : Word) : (s.setI w).lastCheck = s.lastCheck := rfl
@[simp] theorem State.setI_tc (s : State) (w : Word) : (s.setI w).tc = s.tc := rfl
@[simp] theorem State.setI_keySlot (s : State) (w : Word) : (s.setI w).keySlot = s.keySlot := rfl
@[simp] theorem State.setI_playing (s : State) (w : Word) : (s.setI w).playing = s.playing := rfl
@[simp] theorem State.setI_runState (s : State) (w : Word) : (s.setI w).runState = s.runState := rfl
@[simp] theorem State.setI_waitX (s : State) (w : Word) : (s.setI w).waitX = s.waitX := rfl
@[simp] theorem State.setI_faultCode (s : State) (w : Word) : (s.setI w).faultCode = s.faultCode := rfl
@[simp] theorem State.setI_faultPc (s : State) (w : Word) : (s.setI w).faultPc = s.faultPc := rfl
@[simp] theorem State.setI_faultAddr (s : State) (w : Word) : (s.setI w).faultAddr = s.faultAddr := rfl
@[simp] theorem State.setI_loadFailed (s : State) (w : Word) : (s.setI w).loadFailed = s.loadFailed := rfl
@[simp] theorem State.setI_params (s : State) (w : Word) : (s.setI w).params = s.params := rfl
@[simp] theorem State.setI_hostQueue (s : State) (w : Word) : (s.setI w).hostQueue = s.hostQueue := rfl
@[simp] theorem State.setI_hostClock (s : State) (w : Word) : (s.setI w).hostClock = s.hostClock := rfl

/-! ### setDt -/

@[simp] theorem State.setDt_v (s : State) (w : Byte) : (s.setDt w).v = s.v := rfl
@[simp] theorem State.setDt_i (s : State) (w : Byte) : (s.setDt w).i = s.i := rfl
@[simp] theorem State.setDt_pc (s : State) (w : Byte) : (s.setDt w).pc = s.pc := rfl
@[simp] theorem State.setDt_sp (s : State) (w : Byte) : (s.setDt w).sp = s.sp := rfl
@[simp] theorem State.setDt_stack (s : State) (w : Byte) : (s.setDt w).stack = s.stack := rfl
@[simp] theorem State.setDt_dt (s : State) (w : Byte) : (s.setDt w).dt = w := rfl
@[simp] theorem State.setDt_st (s : State) (w : Byte) : (s.setDt w).st = s.st := rfl
@[simp] theorem State.setDt_disp (s : State) (w : Byte) : (s.setDt w).disp = s.disp := rfl
@[simp] theorem State.setDt_mem (s : State) (w : Byte) : (s.setDt w).mem = s.mem := rfl
@[simp] theorem State.setDt_rng (s : State) (w : Byte) : (s.setDt w).rng = s.rng := rfl
@[simp] theorem State.setDt_allowance (s : State) (w : Byte) : (s.setDt w).allowance = s.allowance := rfl
@[simp] theorem State.setDt_lastCheck (s : State) (w : Byte) : (s.setDt w).lastCheck = s.lastCheck := rfl
@[simp] theorem State.setDt_tc (s : State) (w : Byte) : (s.setDt w).tc = s.tc := rfl
@[simp] theorem State.setDt_keySlot (s : State) (w : Byte) : (s.setDt w).keySlot = s.keySlot := rfl
@[simp] theorem State.setDt_playing (s : State) (w : Byte) : (s.setDt w).playing = s.playing := rfl
@[simp] theorem State.setDt_runState (s : State) (w : Byte) : (s.setDt w).runState = s.runState := rfl
@[simp] theorem State.setDt_waitX (s : State) (w : Byte) : (s.setDt w).waitX = s.waitX := rfl
@[simp] theorem State.setDt_faultCode (s : State) (w : Byte) : (s.setDt w).faultCode = s.faultCode := rfl
@[simp] theorem State.setDt_faultPc (s : State) (w : Byte) : (s.setDt w).faultPc = s.faultPc := rfl
@[simp] theorem State.setDt_faultAddr (s : State) (w : Byte) : (s.setDt w).faultAddr = s.faultAddr := rfl
@[simp] theorem State.setDt_loadFailed (s : State) (w : Byte) : (s.setDt w).loadFailed = s.loadFailed := rfl
@[simp] theorem State.setDt_params (s : State) (w : Byte) : (s.setDt w).params = s.params := rfl
@[simp] theorem State.setDt_hostQueue (s : State) (w : Byte) : (s.setDt w).hostQueue = s.hostQueue := rfl
@[simp] theorem State.setDt_hostClock (s : State) (w : Byte) : (s.setDt w).hostClock = s.hostClock := rfl

/-! ### setSt -/

@[simp] theorem State.setSt_v (s : State) (w : Byte) : (s.setSt w).v = s.v := rfl
@[simp] theorem State.setSt_i (s : State) (w : Byte) : (s.setSt w).i = s.i := rfl
@[simp] theorem State.setSt_pc (s : State) (w : Byte) : (s.setSt w).pc = s.pc := rfl
@[simp] theorem State.setSt_sp (s : State) (w : Byte) : (s.setSt w).sp = s.sp := rfl
@[simp] theorem State.setSt_stack (s : State) (w : Byte) : (s.setSt w).stack = s.stack := rfl
@[simp] theorem State.setSt_dt (s : State) (w : Byte) : (s.setSt w).dt = s.dt := rfl
@[simp] theorem State.setSt_st (s : State) (w : Byte) : (s.setSt w).st = w := rfl
@[simp] theorem State.setSt_disp (s : State) (w : Byte) : (s.setSt w).disp = s.disp := rfl
@[simp] theorem State.setSt_mem (s : State) (w : Byte) : (s.setSt w).mem = s.mem := rfl
@[simp] theorem State.setSt_rng (s : State) (w : Byte) : (s.setSt w).rng = s.rng := rfl
@[simp] theorem State.setSt_allowance (s : State) (w : Byte) : (s.setSt w).allowance = s.allowance := rfl
@[simp] theorem State.setSt_lastCheck (s : State) (w : Byte) : (s.setSt w).lastCheck = s.lastCheck := rfl
@[simp] theorem State.setSt_tc (s : State) (w : Byte) : (s.setSt w).tc = s.tc := rfl
@[simp] theorem State.setSt_keySlot (s : State) (w : Byte) : (s.setSt w).keySlot = s.keySlot := rfl
@[simp] theorem State.setSt_playing (s : State) (w : Byte) : (s.setSt w).playing = s.playing := rfl
@[simp] theorem State.setSt_runState (s : State) (w : Byte) : (s.setSt w).runState = s.runState := rfl
@[simp] theorem State.setSt_waitX (s : State) (w : Byte) : (s.setSt w).waitX = s.waitX := rfl
@[simp] theorem State.setSt_faultCode (s : State) (w : Byte) : (s.setSt w).faultCode = s.faultCode := rfl
@[simp] theorem State.setSt_faultPc (s : State) (w : Byte) : (s.setSt w).faultPc = s.faultPc := rfl
@[simp] theorem State.setSt_faultAddr (s : State) (w : Byte) : (s.setSt w).faultAddr = s.faultAddr := rfl
@[simp] theorem State.setSt_loadFailed (s : State) (w : Byte) : (s.setSt w).loadFailed = s.loadFailed := rfl
@[simp] theorem State.setSt_params (s : State) (w : Byte) : (s.setSt w).params = s.params := rfl
@[simp] theorem State.setSt_hostQueue (s : State) (w : Byte) : (s.setSt w).hostQueue = s.hostQueue := rfl
@[simp] theorem State.setSt_hostClock (s : State) (w : Byte) : (s.setSt w).hostClock = s.hostClock := rfl

/-! ### setDisp -/

@[simp] theorem State.setDisp_v (s : State) (d : Display) : (s.setDisp d).v = s.v := rfl
@[simp] theorem State.setDisp_i (s : State) (d : Display) : (s.setDisp d).i = s.i := rfl
@[simp] theorem State.setDisp_pc (s : State) (d : Display) : (s.setDisp d).pc = s.pc := rfl
@[simp] theorem State.setDisp_sp (s : State) (d : Display) : (s.setDisp d).sp = s.sp := rfl
@[simp] theorem State.setDisp_stack (s : State) (d : Display) : (s.setDisp d).stack = s.stack := rfl
@[simp] theorem State.setDisp_dt (s : State) (d : Display) : (s.setDisp d).dt = s.dt := rfl
@[simp] theorem State.setDisp_st (s : State) (d : Display) : (s.setDisp d).st = s.st := rfl
@[simp] theorem State.setDisp_disp (s : State) (d : Display) : (s.setDisp d).disp = d := rfl
@[simp] theorem State.setDisp_mem (s : State) (d : Display) : (s.setDisp d).mem = s.mem := rfl
@[simp] theorem State.setDisp_rng (s : State) (d : Display) : (s.setDisp d).rng = s.rng := rfl
@[simp] theorem State.setDisp_allowance (s : State) (d : Display) : (s.setDisp d).allowance = s.allowance := rfl
@[simp] theorem State.setDisp_lastCheck (s : State) (d : Display) : (s.setDisp d).lastCheck = s.lastCheck := rfl
@[simp] theorem State.setDisp_tc (s : State) (d : Display) : (s.setDisp d).tc = s.tc := rfl
@[simp] theorem State.setDisp_keySlot (s : State) (d : Display) : (s.setDisp d).keySlot = s.keySlot := rfl
@[simp] theorem State.setDisp_playing (s : State) (d : Display) : (s.setDisp d).playing = s.playing := rfl
@[simp] theorem State.setDisp_runState (s : State) (d : Display) : (s.setDisp d).runState = s.runState := rfl
@[simp] theorem State.setDisp_waitX (s : State) (d : Display) : (s.setDisp d).waitX = s.waitX := rfl
@[simp] theorem State.setDisp_faultCode (s : State) (d : Display) : (s.setDisp d).faultCode = s.faultCode := rfl
@[simp] theorem State.setDisp_faultPc (s : State) (d : Display) : (s.setDisp d).faultPc = s.faultPc := rfl
@[simp] theorem State.setDisp_faultAddr (s : State) (d : Display) : (s.setDisp d).faultAddr = s.faultAddr := rfl
@[simp] theorem State.setDisp_loadFailed (s : State) (d : Display) : (s.setDisp d).loadFailed = s.loadFailed := rfl
@[simp] theorem State.setDisp_params (s : State) (d : Display) : (s.setDisp d).params = s.params := rfl
@[simp] theorem State.setDisp_hostQueue (s : State) (d : Display) : (s.setDisp d).hostQueue = s.hostQueue := rfl
@[simp] theorem State.setDisp_hostClock (s : State) (d : Display) : (s.setDisp d).hostClock = s.hostClock := rfl

/-! ### setMem -/

@[simp] theorem State.setMem_v (s : State) (m : Memory) : (s.setMem m).v = s.v := rfl
@[simp] theorem State.setMem_i (s : State) (m : Memory) : (s.setMem m).i = s.i := rfl
@[simp] theorem State.setMem_pc (s : State) (m : Memory) : (s.setMem m).pc = s.pc := rfl
@[simp] theorem State.setMem_sp (s : State) (m : Memory) : (s.setMem m).sp = s.sp := rfl
@[simp] theorem State.setMem_stack (s : State) (m : Memory) : (s.setMem m).stack = s.stack := rfl
@[simp] theorem State.setMem_dt (s : State) (m : Memory) : (s.setMem m).dt = s.dt := rfl
@[simp] theorem State.setMem_st (s : State) (m : Memory) : (s.setMem m).st = s.st := rfl
@[simp] theorem State.setMem_disp (s : State) (m : Memory) : (s.setMem m).disp = s.disp := rfl
@[simp] theorem State.setMem_mem (s : State) (m : Memory) : (s.setMem m).mem = m := rfl
@[simp] theorem State.setMem_rng (s : State) (m : Memory) : (s.setMem m).rng = s.rng := rfl
@[simp] theorem State.setMem_allowance (s : State) (m : Memory) : (s.setMem m).allowance = s.allowance := rfl
@[simp] theorem State.setMem_lastCheck (s : State) (m : Memory) : (s.setMem m).lastCheck = s.lastCheck := rfl
@[simp] theorem State.setMem_tc (s : State) (m : Memory) : (s.setMem m).tc = s.tc := rfl
@[simp] theorem State.setMem_keySlot (s : State) (m : Memory) : (s.setMem m).keySlot = s.keySlot := rfl
@[simp] theorem State.setMem_playing (s : State) (m : Memory) : (s.setMem m).playing = s.playing := rfl
@[simp] theorem State.setMem_runState (s : State) (m : Memory) : (s.setMem m).runState = s.runState := rfl
@[simp] theorem State.setMem_waitX (s : State) (m : Memory) : (s.setMem m).waitX = s.waitX := rfl
@[simp] theorem State.setMem_faultCode (s : State) (m : Memory) : (s.setMem m).faultCode = s.faultCode := rfl
@[simp] theorem State.setMem_faultPc (s : State) (m : Memory) : (s.setMem m).faultPc = s.faultPc := rfl
@[simp] theorem State.setMem_faultAddr (s : State) (m : Memory) : (s.setMem m).faultAddr = s.faultAddr := rfl
@[simp] theorem State.setMem_loadFailed (s : State) (m : Memory) : (s.setMem m).loadFailed = s.loadFailed := rfl
@[simp] theorem State.setMem_params (s : State) (m : Memory) : (s.setMem m).params = s.params := rfl
@[simp] theorem State.setMem_hostQueue (s : State) (m : Memory) : (s.setMem m).hostQueue = s.hostQueue := rfl
@[simp] theorem State.setMem_hostClock (s : State) (m : Memory) : (s.setMem m).hostClock = s.hostClock := rfl

/-! ### advance -/

@[simp] theorem State.advance_v (s : State) : (s.advance).v = s.v := rfl
@[simp] theorem State.advance_i (s : State) : (s.advance).i = s.i := rfl
@[simp] theorem State.advance_pc (s : State) : (s.advance).pc = s.pc + 2 := rfl
@[simp] theorem State.advance_sp (s : State) : (s.advance).sp = s.sp := rfl
@[simp] theorem State.advance_stack (s : State) : (s.advance).stack = s.stack := rfl
@[simp] theorem State.advance_dt (s : State) : (s.advance).dt = s.dt := rfl
@[simp] theorem State.advance_st (s : State) : (s.advance).st = s.st := rfl
@[simp] theorem State.advance_disp (s : State) : (s.advance).disp = s.disp := rfl
@[simp] theorem State.advance_mem (s : State) : (s.advance).mem = s.mem := rfl
@[simp] theorem State.advance_rng (s : State) : (s.advance).rng = s.rng := rfl
@[simp] theorem State.advance_allowance (s : State) : (s.advance).allowance = s.allowance := rfl
@[simp] theorem State.advance_lastCheck (s : State) : (s.advance).lastCheck = s.lastCheck := rfl
@[simp] theorem State.advance_tc (s : State) : (s.advance).tc = s.tc := rfl
@[simp] theorem State.advance_keySlot (s : State) : (s.advance).keySlot = s.keySlot := rfl
@[simp] theorem State.advance_playing (s : State) : (s.advance).playing = s.playing := rfl
@[simp] theorem State.advance_runState (s : State) : (s.advance).runState = s.runState := rfl
@[simp] theorem State.advance_waitX (s : State) : (s.advance).waitX = s.waitX := rfl
@[simp] theorem State.advance_faultCode (s : State) : (s.advance).faultCode = s.faultCode := rfl
@[simp] theorem State.advance_faultPc (s : State) : (s.advance).faultPc = s.faultPc := rfl
@[simp] theorem State.advance_faultAddr (s : State) : (s.advance).faultAddr = s.faultAddr := rfl
@[simp] theorem State.advance_loadFailed (s : State) : (s.advance).loadFailed = s.loadFailed := rfl
@[simp] theorem State.advance_params (s : State) : (s.advance).params = s.params := rfl
@[simp] theorem State.advance_hostQueue (s : State) : (s.advance).hostQueue = s.hostQueue := rfl
@[simp] theorem State.advance_hostClock (s : State) : (s.advance).hostClock = s.hostClock := rfl

/-! ### raiseFault -/

@[simp] theorem State.raiseFault_v (s : State) (c : FaultCode) (a : Nat) : (s.raiseFault c a).v = s.v := rfl
@[simp] theorem State.raiseFault_i (s : State) (c : FaultCode) (a : Nat) : (s.raiseFault c a).i = s.i := rfl
@[simp] theorem State.raiseFault_pc (s : State) (c : FaultCode) (a : Nat) : (s.raiseFault c a).pc = s.pc := rfl
@[simp] theorem State.raiseFault_sp (s : State) (c : FaultCode) (a : Nat) : (s.raiseFault c a).sp = s.sp := rfl
@[simp] theorem State.raiseFault_stack (s : State) (c : FaultCode) (a : Nat) : (s.raiseFault c a).stack = s.stack := rfl
@[simp] theorem State.raiseFault_dt (s : State) (c : FaultCode) (a : Nat) : (s.raiseFault c a).dt = s.dt := rfl
@[simp] theorem State.raiseFault_st (s : State) (c : FaultCode) (a : Nat) : (s.raiseFault c a).st = s.st := rfl
@[simp] theorem State.raiseFault_disp (s : State) (c : FaultCode) (a : Nat) : (s.raiseFault c a).disp = s.disp := rfl
@[simp] theorem State.raiseFault_mem (s : State) (c : FaultCode) (a : Nat) : (s.raiseFault c a).mem = s.mem := rfl
@[simp] theorem State.raiseFault_rng (s : State) (c : FaultCode) (a : Nat) : (s.raiseFault c a).rng = s.rng := rfl
@[simp] theorem State.raiseFault_allowance (s : State) (c : FaultCode) (a : Nat) : (s.raiseFault c a).allowance = s.allowance := rfl
@[simp] theorem State.raiseFault_lastCheck (s : State) (c : FaultCode) (a : Nat) : (s.raiseFault c a).lastCheck = s.lastCheck := rfl
@[simp] theorem State.raiseFault_tc (s : State) (c : FaultCode) (a : Nat) : (s.raiseFault c a).tc = s.tc := rfl
@[simp] theorem State.raiseFault_keySlot (s : State) (c : FaultCode) (a : Nat) : (s.raiseFault c a).keySlot = s.keySlot := rfl
@[simp] theorem State.raiseFault_playing (s : State) (c : FaultCode) (a : Nat) : (s.raiseFault c a).playing = false := rfl
@[simp] theorem State.raiseFault_runState (s : State) (c : FaultCode) (a : Nat) : (s.raiseFault c a).runState = .fault := rfl
@[simp] theorem State.raiseFault_waitX (s : State) (c : FaultCode) (a : Nat) : (s.raiseFault c a).waitX = s.waitX := rfl
@[simp] theorem State.raiseFault_faultCode (s : State) (c : FaultCode) (a : Nat) : (s.raiseFault c a).faultCode = c := rfl
@[simp] theorem State.raiseFault_faultPc (s : State) (c : FaultCode) (a : Nat) : (s.raiseFault c a).faultPc = s.pc := rfl
@[simp] theorem State.raiseFault_faultAddr (s : State) (c : FaultCode) (a : Nat) : (s.raiseFault c a).faultAddr = BitVec.ofNat 16 a := rfl
@[simp] theorem State.raiseFault_loadFailed (s : State) (c : FaultCode) (a : Nat) : (s.raiseFault c a).loadFailed = s.loadFailed := rfl
@[simp] theorem State.raiseFault_params (s : State) (c : FaultCode) (a : Nat) : (s.raiseFault c a).params = s.params := rfl
@[simp] theorem State.raiseFault_hostQueue (s : State) (c : FaultCode) (a : Nat) : (s.raiseFault c a).hostQueue = s.hostQueue := rfl
@[simp] theorem State.raiseFault_hostClock (s : State) (c : FaultCode) (a : Nat) : (s.raiseFault c a).hostClock = s.hostClock := rfl

/-! ### pushPc -/

@[simp] theorem State.pushPc_v (s : State) (h : s.sp.val < 16) : (s.pushPc h).v = s.v := rfl
@[simp] theorem State.pushPc_i (s : State) (h : s.sp.val < 16) : (s.pushPc h).i = s.i := rfl
@[simp] theorem State.pushPc_pc (s : State) (h : s.sp.val < 16) : (s.pushPc h).pc = s.pc := rfl
@[simp] theorem State.pushPc_sp (s : State) (h : s.sp.val < 16) : (s.pushPc h).sp = ⟨s.sp.val + 1, by omega⟩ := rfl
@[simp] theorem State.pushPc_stack (s : State) (h : s.sp.val < 16) : (s.pushPc h).stack = s.stack.set s.sp.val s.pc h := rfl
@[simp] theorem State.pushPc_dt (s : State) (h : s.sp.val < 16) : (s.pushPc h).dt = s.dt := rfl
@[simp] theorem State.pushPc_st (s : State) (h : s.sp.val < 16) : (s.pushPc h).st = s.st := rfl
@[simp] theorem State.pushPc_disp (s : State) (h : s.sp.val < 16) : (s.pushPc h).disp = s.disp := rfl
@[simp] theorem State.pushPc_mem (s : State) (h : s.sp.val < 16) : (s.pushPc h).mem = s.mem := rfl
@[simp] theorem State.pushPc_rng (s : State) (h : s.sp.val < 16) : (s.pushPc h).rng = s.rng := rfl
@[simp] theorem State.pushPc_allowance (s : State) (h : s.sp.val < 16) : (s.pushPc h).allowance = s.allowance := rfl
@[simp] theorem State.pushPc_lastCheck (s : State) (h : s.sp.val < 16) : (s.pushPc h).lastCheck = s.lastCheck := rfl
@[simp] theorem State.pushPc_tc (s : State) (h : s.sp.val < 16) : (s.pushPc h).tc = s.tc := rfl
@[simp] theorem State.pushPc_keySlot (s : State) (h : s.sp.val < 16) : (s.pushPc h).keySlot = s.keySlot := rfl
@[simp] theorem State.pushPc_playing (s : State) (h : s.sp.val < 16) : (s.pushPc h).playing = s.playing := rfl
@[simp] theorem State.pushPc_runState (s : State) (h : s.sp.val < 16) : (s.pushPc h).runState = s.runState := rfl
@[simp] theorem State.pushPc_waitX (s : State) (h : s.sp.val < 16) : (s.pushPc h).waitX = s.waitX := rfl
@[simp] theorem State.pushPc_faultCode (s : State) (h : s.sp.val < 16) : (s.pushPc h).faultCode = s.faultCode := rfl
@[simp] theorem State.pushPc_faultPc (s : State) (h : s.sp.val < 16) : (s.pushPc h).faultPc = s.faultPc := rfl
@[simp] theorem State.pushPc_faultAddr (s : State) (h : s.sp.val < 16) : (s.pushPc h).faultAddr = s.faultAddr := rfl
@[simp] theorem State.pushPc_loadFailed (s : State) (h : s.sp.val < 16) : (s.pushPc h).loadFailed = s.loadFailed := rfl
@[simp] theorem State.pushPc_params (s : State) (h : s.sp.val < 16) : (s.pushPc h).params = s.params := rfl
@[simp] theorem State.pushPc_hostQueue (s : State) (h : s.sp.val < 16) : (s.pushPc h).hostQueue = s.hostQueue := rfl
@[simp] theorem State.pushPc_hostClock (s : State) (h : s.sp.val < 16) : (s.pushPc h).hostClock = s.hostClock := rfl

/-! ### popPc -/

@[simp] theorem State.popPc_v (s : State) (h : 0 < s.sp.val) : (s.popPc h).v = s.v := rfl
@[simp] theorem State.popPc_i (s : State) (h : 0 < s.sp.val) : (s.popPc h).i = s.i := rfl
@[simp] theorem State.popPc_pc (s : State) (h : 0 < s.sp.val) : (s.popPc h).pc = s.stack[s.sp.val - 1]'(by omega) + 2 := rfl
@[simp] theorem State.popPc_sp (s : State) (h : 0 < s.sp.val) : (s.popPc h).sp = ⟨s.sp.val - 1, by omega⟩ := rfl
@[simp] theorem State.popPc_stack (s : State) (h : 0 < s.sp.val) : (s.popPc h).stack = s.stack := rfl
@[simp] theorem State.popPc_dt (s : State) (h : 0 < s.sp.val) : (s.popPc h).dt = s.dt := rfl
@[simp] theorem State.popPc_st (s : State) (h : 0 < s.sp.val) : (s.popPc h).st = s.st := rfl
@[simp] theorem State.popPc_disp (s : State) (h : 0 < s.sp.val) : (s.popPc h).disp = s.disp := rfl
@[simp] theorem State.popPc_mem (s : State) (h : 0 < s.sp.val) : (s.popPc h).mem = s.mem := rfl
@[simp] theorem State.popPc_rng (s : State) (h : 0 < s.sp.val) : (s.popPc h).rng = s.rng := rfl
@[simp] theorem State.popPc_allowance (s : State) (h : 0 < s.sp.val) : (s.popPc h).allowance = s.allowance := rfl
@[simp] theorem State.popPc_lastCheck (s : State) (h : 0 < s.sp.val) : (s.popPc h).lastCheck = s.lastCheck := rfl
@[simp] theorem State.popPc_tc (s : State) (h : 0 < s.sp.val) : (s.popPc h).tc = s.tc := rfl
@[simp] theorem State.popPc_keySlot (s : State) (h : 0 < s.sp.val) : (s.popPc h).keySlot = s.keySlot := rfl
@[simp] theorem State.popPc_playing (s : State) (h : 0 < s.sp.val) : (s.popPc h).playing = s.playing := rfl
@[simp] theorem State.popPc_runState (s : State) (h : 0 < s.sp.val) : (s.popPc h).runState = s.runState := rfl
@[simp] theorem State.popPc_waitX (s : State) (h : 0 < s.sp.val) : (s.popPc h).waitX = s.waitX := rfl
@[simp] theorem State.popPc_faultCode (s : State) (h : 0 < s.sp.val) : (s.popPc h).faultCode = s.faultCode := rfl
@[simp] theorem State.popPc_faultPc (s : State) (h : 0 < s.sp.val) : (s.popPc h).faultPc = s.faultPc := rfl
@[simp] theorem State.popPc_faultAddr (s : State) (h : 0 < s.sp.val) : (s.popPc h).faultAddr = s.faultAddr := rfl
@[simp] theorem State.popPc_loadFailed (s : State) (h : 0 < s.sp.val) : (s.popPc h).loadFailed = s.loadFailed := rfl
@[simp] theorem State.popPc_params (s : State) (h : 0 < s.sp.val) : (s.popPc h).params = s.params := rfl
@[simp] theorem State.popPc_hostQueue (s : State) (h : 0 < s.sp.val) : (s.popPc h).hostQueue = s.hostQueue := rfl
@[simp] theorem State.popPc_hostClock (s : State) (h : 0 < s.sp.val) : (s.popPc h).hostClock = s.hostClock := rfl

/-! ### keyTake_snd -/

@[simp] theorem State.keyTake_snd_v (s : State) : (s.keyTake.2).v = s.v := rfl
@[simp] theorem State.keyTake_snd_i (s : State) : (s.keyTake.2).i = s.i := rfl
@[simp] theorem State.keyTake_snd_pc (s : State) : (s.keyTake.2).pc = s.pc := rfl
@[simp] theorem State.keyTake_snd_sp (s : State) : (s.keyTake.2).sp = s.sp := rfl
@[simp] theorem State.keyTake_snd_stack (s : State) : (s.keyTake.2).stack = s.stack := rfl
@[simp] theorem State.keyTake_snd_dt (s : State) : (s.keyTake.2).dt = s.dt := rfl
@[simp] theorem State.keyTake_snd_st (s : State) : (s.keyTake.2).st = s.st := rfl
@[simp] theorem State.keyTake_snd_disp (s : State) : (s.keyTake.2).disp = s.disp := rfl
@[simp] theorem State.keyTake_snd_mem (s : State) : (s.keyTake.2).mem = s.mem := rfl
@[simp] theorem State.keyTake_snd_rng (s : State) : (s.keyTake.2).rng = s.rng := rfl
@[simp] theorem State.keyTake_snd_allowance (s : State) : (s.keyTake.2).allowance = s.allowance := rfl
@[simp] theorem State.keyTake_snd_lastCheck (s : State) : (s.keyTake.2).lastCheck = s.lastCheck := rfl
@[simp] theorem State.keyTake_snd_tc (s : State) : (s.keyTake.2).tc = s.tc := rfl
@[simp] theorem State.keyTake_snd_keySlot (s : State) : (s.keyTake.2).keySlot = none := rfl
@[simp] theorem State.keyTake_snd_playing (s : State) : (s.keyTake.2).playing = s.playing := rfl
@[simp] theorem State.keyTake_snd_runState (s : State) : (s.keyTake.2).runState = s.runState := rfl
@[simp] theorem State.keyTake_snd_waitX (s : State) : (s.keyTake.2).waitX = s.waitX := rfl
@[simp] theorem State.keyTake_snd_faultCode (s : State) : (s.keyTake.2).faultCode = s.faultCode := rfl
@[simp] theorem State.keyTake_snd_faultPc (s : State) : (s.keyTake.2).faultPc = s.faultPc := rfl
@[simp] theorem State.keyTake_snd_faultAddr (s : State) : (s.keyTake.2).faultAddr = s.faultAddr := rfl
@[simp] theorem State.keyTake_snd_loadFailed (s : State) : (s.keyTake.2).loadFailed = s.loadFailed := rfl
@[simp] theorem State.keyTake_snd_params (s : State) : (s.keyTake.2).params = s.params := rfl
@[simp] theorem State.keyTake_snd_hostQueue (s : State) : (s.keyTake.2).hostQueue = s.hostQueue := rfl
@[simp] theorem State.keyTake_snd_hostClock (s : State) : (s.keyTake.2).hostClock = s.hostClock := rfl

/-! ### beginWait -/

@[simp] theorem State.beginWait_v (s : State) (x : Reg) : (s.beginWait x).v = s.v := rfl
@[simp] theorem State.beginWait_i (s : State) (x : Reg) : (s.beginWait x).i = s.i := rfl
@[simp] theorem State.beginWait_pc (s : State) (x : Reg) : (s.beginWait x).pc = s.pc := rfl
@[simp] theorem State.beginWait_sp (s : State) (x : Reg) : (s.beginWait x).sp = s.sp := rfl
@[simp] theorem State.beginWait_stack (s : State) (x : Reg) : (s.beginWait x).stack = s.stack := rfl
@[simp] theorem State.beginWait_dt (s : State) (x : Reg) : (s.beginWait x).dt = s.dt := rfl
@[simp] theorem State.beginWait_st (s : State) (x : Reg) : (s.beginWait x).st = s.st := rfl
@[simp] theorem State.beginWait_disp (s : State) (x : Reg) : (s.beginWait x).disp = s.disp := rfl
@[simp] theorem State.beginWait_mem (s : State) (x : Reg) : (s.beginWait x).mem = s.mem := rfl
@[simp] theorem State.beginWait_rng (s : State) (x : Reg) : (s.beginWait x).rng = s.rng := rfl
@[simp] theorem State.beginWait_allowance (s : State) (x : Reg) : (s.beginWait x).allowance = s.allowance := rfl
@[simp] theorem State.beginWait_lastCheck (s : State) (x : Reg) : (s.beginWait x).lastCheck = s.lastCheck := rfl
@[simp] theorem State.beginWait_tc (s : State) (x : Reg) : (s.beginWait x).tc = s.tc := rfl
@[simp] theorem State.beginWait_keySlot (s : State) (x : Reg) : (s.beginWait x).keySlot = s.keySlot := rfl
@[simp] theorem State.beginWait_playing (s : State) (x : Reg) : (s.beginWait x).playing = s.playing := rfl
@[simp] theorem State.beginWait_runState (s : State) (x : Reg) : (s.beginWait x).runState = .waitKey := rfl
@[simp] theorem State.beginWait_waitX (s : State) (x : Reg) : (s.beginWait x).waitX = x := rfl
@[simp] theorem State.beginWait_faultCode (s : State) (x : Reg) : (s.beginWait x).faultCode = s.faultCode := rfl
@[simp] theorem State.beginWait_faultPc (s : State) (x : Reg) : (s.beginWait x).faultPc = s.faultPc := rfl
@[simp] theorem State.beginWait_faultAddr (s : State) (x : Reg) : (s.beginWait x).faultAddr = s.faultAddr := rfl
@[simp] theorem State.beginWait_loadFailed (s : State) (x : Reg) : (s.beginWait x).loadFailed = s.loadFailed := rfl
@[simp] theorem State.beginWait_params (s : State) (x : Reg) : (s.beginWait x).params = s.params := rfl
@[simp] theorem State.beginWait_hostQueue (s : State) (x : Reg) : (s.beginWait x).hostQueue = s.hostQueue := rfl
@[simp] theorem State.beginWait_hostClock (s : State) (x : Reg) : (s.beginWait x).hostClock = s.hostClock := rfl

/-! ### rngDraw_snd -/

@[simp] theorem State.rngDraw_snd_v (s : State) : (s.rngDraw.2).v = s.v := rfl
@[simp] theorem State.rngDraw_snd_i (s : State) : (s.rngDraw.2).i = s.i := rfl
@[simp] theorem State.rngDraw_snd_pc (s : State) : (s.rngDraw.2).pc = s.pc := rfl
@[simp] theorem State.rngDraw_snd_sp (s : State) : (s.rngDraw.2).sp = s.sp := rfl
@[simp] theorem State.rngDraw_snd_stack (s : State) : (s.rngDraw.2).stack = s.stack := rfl
@[simp] theorem State.rngDraw_snd_dt (s : State) : (s.rngDraw.2).dt = s.dt := rfl
@[simp] theorem State.rngDraw_snd_st (s : State) : (s.rngDraw.2).st = s.st := rfl
@[simp] theorem State.rngDraw_snd_disp (s : State) : (s.rngDraw.2).disp = s.disp := rfl
@[simp] theorem State.rngDraw_snd_mem (s : State) : (s.rngDraw.2).mem = s.mem := rfl
@[simp] theorem State.rngDraw_snd_rng (s : State) : (s.rngDraw.2).rng = (Config.rngNext s.rng).2 := rfl
@[simp] theorem State.rngDraw_snd_allowance (s : State) : (s.rngDraw.2).allowance = s.allowance := rfl
@[simp] theorem State.rngDraw_snd_lastCheck (s : State) : (s.rngDraw.2).lastCheck = s.lastCheck := rfl
@[simp] theorem State.rngDraw_snd_tc (s : State) : (s.rngDraw.2).tc = s.tc := rfl
@[simp] theorem State.rngDraw_snd_keySlot (s : State) : (s.rngDraw.2).keySlot = s.keySlot := rfl
@[simp] theorem State.rngDraw_snd_playing (s : State) : (s.rngDraw.2).playing = s.playing := rfl
@[simp] theorem State.rngDraw_snd_runState (s : State) : (s.rngDraw.2).runState = s.runState := rfl
@[simp] theorem State.rngDraw_snd_waitX (s : State) : (s.rngDraw.2).waitX = s.waitX := rfl
@[simp] theorem State.rngDraw_snd_faultCode (s : State) : (s.rngDraw.2).faultCode = s.faultCode := rfl
@[simp] theorem State.rngDraw_snd_faultPc (s : State) : (s.rngDraw.2).faultPc = s.faultPc := rfl
@[simp] theorem State.rngDraw_snd_faultAddr (s : State) : (s.rngDraw.2).faultAddr = s.faultAddr := rfl
@[simp] theorem State.rngDraw_snd_loadFailed (s : State) : (s.rngDraw.2).loadFailed = s.loadFailed := rfl
@[simp] theorem State.rngDraw_snd_params (s : State) : (s.rngDraw.2).params = s.params := rfl
@[simp] theorem State.rngDraw_snd_hostQueue (s : State) : (s.rngDraw.2).hostQueue = s.hostQueue := rfl
@[simp] theorem State.rngDraw_snd_hostClock (s : State) : (s.rngDraw.2).hostClock = s.hostClock := rfl

/-! ### setGovernor -/

@[simp] theorem State.setGovernor_v (s : State) (a : Rat) (c : Millis) : (s.setGovernor a c).v = s.v := rfl
@[simp] theorem State.setGovernor_i (s : State) (a : Rat) (c : Millis) : (s.setGovernor a c).i = s.i := rfl
@[simp] theorem State.setGovernor_pc (s : State) (a : Rat) (c : Millis) : (s.setGovernor a c).pc = s.pc := rfl
@[simp] theorem State.setGovernor_sp (s : State) (a : Rat) (c : Millis) : (s.setGovernor a c).sp = s.sp := rfl
@[simp] theorem State.setGovernor_stack (s : State) (a : Rat) (c : Millis) : (s.setGovernor a c).stack = s.stack := rfl
@[simp] theorem State.setGovernor_dt (s : State) (a : Rat) (c : Millis) : (s.setGovernor a c).dt = s.dt := rfl
@[simp] theorem State.setGovernor_st (s : State) (a : Rat) (c : Millis) : (s.setGovernor a c).st = s.st := rfl
@[simp] theorem State.setGovernor_disp (s : State) (a : Rat) (c : Millis) : (s.setGovernor a c).disp = s.disp := rfl
@[simp] theorem State.setGovernor_mem (s : State) (a : Rat) (c : Millis) : (s.setGovernor a c).mem = s.mem := rfl
@[simp] theorem State.setGovernor_rng (s : State) (a : Rat) (c : Millis) : (s.setGovernor a c).rng = s.rng := rfl
@[simp] theorem State.setGovernor_allowance (s : State) (a : Rat) (c : Millis) : (s.setGovernor a c).allowance = a := rfl
@[simp] theorem State.setGovernor_lastCheck (s : State) (a : Rat) (c : Millis) : (s.setGovernor a c).lastCheck = c := rfl
@[simp] theorem State.setGovernor_tc (s : State) (a : Rat) (c : Millis) : (s.setGovernor a c).tc = s.tc := rfl
@[simp] theorem State.setGovernor_keySlot (s : State) (a : Rat) (c : Millis) : (s.setGovernor a c).keySlot = s.keySlot := rfl
@[simp] theorem State.setGovernor_playing (s : State) (a : Rat) (c : Millis) : (s.setGovernor a c).playing = s.playing := rfl
@[simp] theorem State.setGovernor_runState (s : State) (a : Rat) (c : Millis) : (s.setGovernor a c).runState = s.runState := rfl
@[simp] theorem State.setGovernor_waitX (s : State) (a : Rat) (c : Millis) : (s.setGovernor a c).waitX = s.waitX := rfl
@[simp] theorem State.setGovernor_faultCode (s : State) (a : Rat) (c : Millis) : (s.setGovernor a c).faultCode = s.faultCode := rfl
@[simp] theorem State.setGovernor_faultPc (s : State) (a : Rat) (c : Millis) : (s.setGovernor a c).faultPc = s.faultPc := rfl
@[simp] theorem State.setGovernor_faultAddr (s : State) (a : Rat) (c : Millis) : (s.setGovernor a c).faultAddr = s.faultAddr := rfl
@[simp] theorem State.setGovernor_loadFailed (s : State) (a : Rat) (c : Millis) : (s.setGovernor a c).loadFailed = s.loadFailed := rfl
@[simp] theorem State.setGovernor_params (s : State) (a : Rat) (c : Millis) : (s.setGovernor a c).params = s.params := rfl
@[simp] theorem State.setGovernor_hostQueue (s : State) (a : Rat) (c : Millis) : (s.setGovernor a c).hostQueue = s.hostQueue := rfl
@[simp] theorem State.setGovernor_hostClock (s : State) (a : Rat) (c : Millis) : (s.setGovernor a c).hostClock = s.hostClock := rfl

/-! ### timerEvent -/

@[simp] theorem State.timerEvent_v (s : State) : (s.timerEvent).v = s.v := rfl
@[simp] theorem State.timerEvent_i (s : State) : (s.timerEvent).i = s.i := rfl
@[simp] theorem State.timerEvent_pc (s : State) : (s.timerEvent).pc = s.pc := rfl
@[simp] theorem State.timerEvent_sp (s : State) : (s.timerEvent).sp = s.sp := rfl
@[simp] theorem State.timerEvent_stack (s : State) : (s.timerEvent).stack = s.stack := rfl
@[simp] theorem State.timerEvent_dt (s : State) : (s.timerEvent).dt = countDown s.dt := rfl
@[simp] theorem State.timerEvent_st (s : State) : (s.timerEvent).st = countDown s.st := rfl
@[simp] theorem State.timerEvent_disp (s : State) : (s.timerEvent).disp = s.disp := rfl
@[simp] theorem State.timerEvent_mem (s : State) : (s.timerEvent).mem = s.mem := rfl
@[simp] theorem State.timerEvent_rng (s : State) : (s.timerEvent).rng = s.rng := rfl
@[simp] theorem State.timerEvent_allowance (s : State) : (s.timerEvent).allowance = s.allowance := rfl
@[simp] theorem State.timerEvent_lastCheck (s : State) : (s.timerEvent).lastCheck = s.lastCheck := rfl
@[simp] theorem State.timerEvent_tc (s : State) : (s.timerEvent).tc = s.tc := rfl
@[simp] theorem State.timerEvent_keySlot (s : State) : (s.timerEvent).keySlot = s.keySlot := rfl
@[simp] theorem State.timerEvent_playing (s : State) : (s.timerEvent).playing = decide (0 < (countDown s.st).toNat) := rfl
@[simp] theorem State.timerEvent_runState (s : State) : (s.timerEvent).runState = s.runState := rfl
@[simp] theorem State.timerEvent_waitX (s : State) : (s.timerEvent).waitX = s.waitX := rfl
@[simp] theorem State.timerEvent_faultCode (s : State) : (s.timerEvent).faultCode = s.faultCode := rfl
@[simp] theorem State.timerEvent_faultPc (s : State) : (s.timerEvent).faultPc = s.faultPc := rfl
@[simp] theorem State.timerEvent_faultAddr (s : State) : (s.timerEvent).faultAddr = s.faultAddr := rfl
@[simp] theorem State.timerEvent_loadFailed (s : State) : (s.timerEvent).loadFailed = s.loadFailed := rfl
@[simp] theorem State.timerEvent_params (s : State) : (s.timerEvent).params = s.params := rfl
@[simp] theorem State.timerEvent_hostQueue (s : State) : (s.timerEvent).hostQueue = s.hostQueue := rfl
@[simp] theorem State.timerEvent_hostClock (s : State) : (s.timerEvent).hostClock = s.hostClock := rfl

/-! ### bumpCadence -/

@[simp] theorem State.bumpCadence_v (s : State) : (s.bumpCadence).v = s.v := rfl
@[simp] theorem State.bumpCadence_i (s : State) : (s.bumpCadence).i = s.i := rfl
@[simp] theorem State.bumpCadence_pc (s : State) : (s.bumpCadence).pc = s.pc := rfl
@[simp] theorem State.bumpCadence_sp (s : State) : (s.bumpCadence).sp = s.sp := rfl
@[simp] theorem State.bumpCadence_stack (s : State) : (s.bumpCadence).stack = s.stack := rfl
@[simp] theorem State.bumpCadence_dt (s : State) : (s.bumpCadence).dt = s.dt := rfl
@[simp] theorem State.bumpCadence_st (s : State) : (s.bumpCadence).st = s.st := rfl
@[simp] theorem State.bumpCadence_disp (s : State) : (s.bumpCadence).disp = s.disp := rfl
@[simp] theorem State.bumpCadence_mem (s : State) : (s.bumpCadence).mem = s.mem := rfl
@[simp] theorem State.bumpCadence_rng (s : State) : (s.bumpCadence).rng = s.rng := rfl
@[simp] theorem State.bumpCadence_allowance (s : State) : (s.bumpCadence).allowance = s.allowance := rfl
@[simp] theorem State.bumpCadence_lastCheck (s : State) : (s.bumpCadence).lastCheck = s.lastCheck := rfl
@[simp] theorem State.bumpCadence_tc (s : State) : (s.bumpCadence).tc = (s.tc + 1) % s.params.timerDivider.val := rfl
@[simp] theorem State.bumpCadence_keySlot (s : State) : (s.bumpCadence).keySlot = s.keySlot := rfl
@[simp] theorem State.bumpCadence_playing (s : State) : (s.bumpCadence).playing = s.playing := rfl
@[simp] theorem State.bumpCadence_runState (s : State) : (s.bumpCadence).runState = s.runState := rfl
@[simp] theorem State.bumpCadence_waitX (s : State) : (s.bumpCadence).waitX = s.waitX := rfl
@[simp] theorem State.bumpCadence_faultCode (s : State) : (s.bumpCadence).faultCode = s.faultCode := rfl
@[simp] theorem State.bumpCadence_faultPc (s : State) : (s.bumpCadence).faultPc = s.faultPc := rfl
@[simp] theorem State.bumpCadence_faultAddr (s : State) : (s.bumpCadence).faultAddr = s.faultAddr := rfl
@[simp] theorem State.bumpCadence_loadFailed (s : State) : (s.bumpCadence).loadFailed = s.loadFailed := rfl
@[simp] theorem State.bumpCadence_params (s : State) : (s.bumpCadence).params = s.params := rfl
@[simp] theorem State.bumpCadence_hostQueue (s : State) : (s.bumpCadence).hostQueue = s.hostQueue := rfl
@[simp] theorem State.bumpCadence_hostClock (s : State) : (s.bumpCadence).hostClock = s.hostClock := rfl

/-! ### resume -/

@[simp] theorem State.resume_v (s : State) : (s.resume).v = s.v := rfl
@[simp] theorem State.resume_i (s : State) : (s.resume).i = s.i := rfl
@[simp] theorem State.resume_pc (s : State) : (s.resume).pc = s.pc := rfl
@[simp] theorem State.resume_sp (s : State) : (s.resume).sp = s.sp := rfl
@[simp] theorem State.resume_stack (s : State) : (s.resume).stack = s.stack := rfl
@[simp] theorem State.resume_dt (s : State) : (s.resume).dt = s.dt := rfl
@[simp] theorem State.resume_st (s : State) : (s.resume).st = s.st := rfl
@[simp] theorem State.resume_disp (s : State) : (s.resume).disp = s.disp := rfl
@[simp] theorem State.resume_mem (s : State) : (s.resume).mem = s.mem := rfl
@[simp] theorem State.resume_rng (s : State) : (s.resume).rng = s.rng := rfl
@[simp] theorem State.resume_allowance (s : State) : (s.resume).allowance = s.allowance := rfl
@[simp] theorem State.resume_lastCheck (s : State) : (s.resume).lastCheck = s.lastCheck := rfl
@[simp] theorem State.resume_tc (s : State) : (s.resume).tc = s.tc := rfl
@[simp] theorem State.resume_keySlot (s : State) : (s.resume).keySlot = s.keySlot := rfl
@[simp] theorem State.resume_playing (s : State) : (s.resume).playing = s.playing := rfl
@[simp] theorem State.resume_runState (s : State) : (s.resume).runState = .run := rfl
@[simp] theorem State.resume_waitX (s : State) : (s.resume).waitX = s.waitX := rfl
@[simp] theorem State.resume_faultCode (s : State) : (s.resume).faultCode = s.faultCode := rfl
@[simp] theorem State.resume_faultPc (s : State) : (s.resume).faultPc = s.faultPc := rfl
@[simp] theorem State.resume_faultAddr (s : State) : (s.resume).faultAddr = s.faultAddr := rfl
@[simp] theorem State.resume_loadFailed (s : State) : (s.resume).loadFailed = s.loadFailed := rfl
@[simp] theorem State.resume_params (s : State) : (s.resume).params = s.params := rfl
@[simp] theorem State.resume_hostQueue (s : State) : (s.resume).hostQueue = s.hostQueue := rfl
@[simp] theorem State.resume_hostClock (s : State) : (s.resume).hostClock = s.hostClock := rfl

/-! ### endLoad -/

@[simp] theorem State.endLoad_v (s : State) (r : RunState) (f : Bool) : (s.endLoad r f).v = s.v := rfl
@[simp] theorem State.endLoad_i (s : State) (r : RunState) (f : Bool) : (s.endLoad r f).i = s.i := rfl
@[simp] theorem State.endLoad_pc (s : State) (r : RunState) (f : Bool) : (s.endLoad r f).pc = s.pc := rfl
@[simp] theorem State.endLoad_sp (s : State) (r : RunState) (f : Bool) : (s.endLoad r f).sp = s.sp := rfl
@[simp] theorem State.endLoad_stack (s : State) (r : RunState) (f : Bool) : (s.endLoad r f).stack = s.stack := rfl
@[simp] theorem State.endLoad_dt (s : State) (r : RunState) (f : Bool) : (s.endLoad r f).dt = s.dt := rfl
@[simp] theorem State.endLoad_st (s : State) (r : RunState) (f : Bool) : (s.endLoad r f).st = s.st := rfl
@[simp] theorem State.endLoad_disp (s : State) (r : RunState) (f : Bool) : (s.endLoad r f).disp = s.disp := rfl
@[simp] theorem State.endLoad_mem (s : State) (r : RunState) (f : Bool) : (s.endLoad r f).mem = s.mem := rfl
@[simp] theorem State.endLoad_rng (s : State) (r : RunState) (f : Bool) : (s.endLoad r f).rng = s.rng := rfl
@[simp] theorem State.endLoad_allowance (s : State) (r : RunState) (f : Bool) : (s.endLoad r f).allowance = s.allowance := rfl
@[simp] theorem State.endLoad_lastCheck (s : State) (r : RunState) (f : Bool) : (s.endLoad r f).lastCheck = s.lastCheck := rfl
@[simp] theorem State.endLoad_tc (s : State) (r : RunState) (f : Bool) : (s.endLoad r f).tc = s.tc := rfl
@[simp] theorem State.endLoad_keySlot (s : State) (r : RunState) (f : Bool) : (s.endLoad r f).keySlot = s.keySlot := rfl
@[simp] theorem State.endLoad_playing (s : State) (r : RunState) (f : Bool) : (s.endLoad r f).playing = s.playing := rfl
@[simp] theorem State.endLoad_runState (s : State) (r : RunState) (f : Bool) : (s.endLoad r f).runState = r := rfl
@[simp] theorem State.endLoad_waitX (s : State) (r : RunState) (f : Bool) : (s.endLoad r f).waitX = s.waitX := rfl
@[simp] theorem State.endLoad_faultCode (s : State) (r : RunState) (f : Bool) : (s.endLoad r f).faultCode = s.faultCode := rfl
@[simp] theorem State.endLoad_faultPc (s : State) (r : RunState) (f : Bool) : (s.endLoad r f).faultPc = s.faultPc := rfl
@[simp] theorem State.endLoad_faultAddr (s : State) (r : RunState) (f : Bool) : (s.endLoad r f).faultAddr = s.faultAddr := rfl
@[simp] theorem State.endLoad_loadFailed (s : State) (r : RunState) (f : Bool) : (s.endLoad r f).loadFailed = f := rfl
@[simp] theorem State.endLoad_params (s : State) (r : RunState) (f : Bool) : (s.endLoad r f).params = s.params := rfl
@[simp] theorem State.endLoad_hostQueue (s : State) (r : RunState) (f : Bool) : (s.endLoad r f).hostQueue = s.hostQueue := rfl
@[simp] theorem State.endLoad_hostClock (s : State) (r : RunState) (f : Bool) : (s.endLoad r f).hostClock = s.hostClock := rfl

/-! ### hostKeyPress -/

@[simp] theorem State.hostKeyPress_v (s : State) (k : Nibble) : (s.hostKeyPress k).v = s.v := rfl
@[simp] theorem State.hostKeyPress_i (s : State) (k : Nibble) : (s.hostKeyPress k).i = s.i := rfl
@[simp] theorem State.hostKeyPress_pc (s : State) (k : Nibble) : (s.hostKeyPress k).pc = s.pc := rfl
@[simp] theorem State.hostKeyPress_sp (s : State) (k : Nibble) : (s.hostKeyPress k).sp = s.sp := rfl
@[simp] theorem State.hostKeyPress_stack (s : State) (k : Nibble) : (s.hostKeyPress k).stack = s.stack := rfl
@[simp] theorem State.hostKeyPress_dt (s : State) (k : Nibble) : (s.hostKeyPress k).dt = s.dt := rfl
@[simp] theorem State.hostKeyPress_st (s : State) (k : Nibble) : (s.hostKeyPress k).st = s.st := rfl
@[simp] theorem State.hostKeyPress_disp (s : State) (k : Nibble) : (s.hostKeyPress k).disp = s.disp := rfl
@[simp] theorem State.hostKeyPress_mem (s : State) (k : Nibble) : (s.hostKeyPress k).mem = s.mem := rfl
@[simp] theorem State.hostKeyPress_rng (s : State) (k : Nibble) : (s.hostKeyPress k).rng = s.rng := rfl
@[simp] theorem State.hostKeyPress_allowance (s : State) (k : Nibble) : (s.hostKeyPress k).allowance = s.allowance := rfl
@[simp] theorem State.hostKeyPress_lastCheck (s : State) (k : Nibble) : (s.hostKeyPress k).lastCheck = s.lastCheck := rfl
@[simp] theorem State.hostKeyPress_tc (s : State) (k : Nibble) : (s.hostKeyPress k).tc = s.tc := rfl
@[simp] theorem State.hostKeyPress_keySlot (s : State) (k : Nibble) : (s.hostKeyPress k).keySlot = some k := rfl
@[simp] theorem State.hostKeyPress_playing (s : State) (k : Nibble) : (s.hostKeyPress k).playing = s.playing := rfl
@[simp] theorem State.hostKeyPress_runState (s : State) (k : Nibble) : (s.hostKeyPress k).runState = s.runState := rfl
@[simp] theorem State.hostKeyPress_waitX (s : State) (k : Nibble) : (s.hostKeyPress k).waitX = s.waitX := rfl
@[simp] theorem State.hostKeyPress_faultCode (s : State) (k : Nibble) : (s.hostKeyPress k).faultCode = s.faultCode := rfl
@[simp] theorem State.hostKeyPress_faultPc (s : State) (k : Nibble) : (s.hostKeyPress k).faultPc = s.faultPc := rfl
@[simp] theorem State.hostKeyPress_faultAddr (s : State) (k : Nibble) : (s.hostKeyPress k).faultAddr = s.faultAddr := rfl
@[simp] theorem State.hostKeyPress_loadFailed (s : State) (k : Nibble) : (s.hostKeyPress k).loadFailed = s.loadFailed := rfl
@[simp] theorem State.hostKeyPress_params (s : State) (k : Nibble) : (s.hostKeyPress k).params = s.params := rfl
@[simp] theorem State.hostKeyPress_hostQueue (s : State) (k : Nibble) : (s.hostKeyPress k).hostQueue = s.hostQueue := rfl
@[simp] theorem State.hostKeyPress_hostClock (s : State) (k : Nibble) : (s.hostKeyPress k).hostClock = s.hostClock := rfl

/-! ### setHostClock -/

@[simp] theorem State.setHostClock_v (s : State) (n : Millis) : (s.setHostClock n).v = s.v := rfl
@[simp] theorem State.setHostClock_i (s : State) (n : Millis) : (s.setHostClock n).i = s.i := rfl
@[simp] theorem State.setHostClock_pc (s : State) (n : Millis) : (s.setHostClock n).pc = s.pc := rfl
@[simp] theorem State.setHostClock_sp (s : State) (n : Millis) : (s.setHostClock n).sp = s.sp := rfl
@[simp] theorem State.setHostClock_stack (s : State) (n : Millis) : (s.setHostClock n).stack = s.stack := rfl
@[simp] theorem State.setHostClock_dt (s : State) (n : Millis) : (s.setHostClock n).dt = s.dt := rfl
@[simp] theorem State.setHostClock_st (s : State) (n : Millis) : (s.setHostClock n).st = s.st := rfl
@[simp] theorem State.setHostClock_disp (s : State) (n : Millis) : (s.setHostClock n).disp = s.disp := rfl
@[simp] theorem State.setHostClock_mem (s : State) (n : Millis) : (s.setHostClock n).mem = s.mem := rfl
@[simp] theorem State.setHostClock_rng (s : State) (n : Millis) : (s.setHostClock n).rng = s.rng := rfl
@[simp] theorem State.setHostClock_allowance (s : State) (n : Millis) : (s.setHostClock n).allowance = s.allowance := rfl
@[simp] theorem State.setHostClock_lastCheck (s : State) (n : Millis) : (s.setHostClock n).lastCheck = s.lastCheck := rfl
@[simp] theorem State.setHostClock_tc (s : State) (n : Millis) : (s.setHostClock n).tc = s.tc := rfl
@[simp] theorem State.setHostClock_keySlot (s : State) (n : Millis) : (s.setHostClock n).keySlot = s.keySlot := rfl
@[simp] theorem State.setHostClock_playing (s : State) (n : Millis) : (s.setHostClock n).playing = s.playing := rfl
@[simp] theorem State.setHostClock_runState (s : State) (n : Millis) : (s.setHostClock n).runState = s.runState := rfl
@[simp] theorem State.setHostClock_waitX (s : State) (n : Millis) : (s.setHostClock n).waitX = s.waitX := rfl
@[simp] theorem State.setHostClock_faultCode (s : State) (n : Millis) : (s.setHostClock n).faultCode = s.faultCode := rfl
@[simp] theorem State.setHostClock_faultPc (s : State) (n : Millis) : (s.setHostClock n).faultPc = s.faultPc := rfl
@[simp] theorem State.setHostClock_faultAddr (s : State) (n : Millis) : (s.setHostClock n).faultAddr = s.faultAddr := rfl
@[simp] theorem State.setHostClock_loadFailed (s : State) (n : Millis) : (s.setHostClock n).loadFailed = s.loadFailed := rfl
@[simp] theorem State.setHostClock_params (s : State) (n : Millis) : (s.setHostClock n).params = s.params := rfl
@[simp] theorem State.setHostClock_hostQueue (s : State) (n : Millis) : (s.setHostClock n).hostQueue = s.hostQueue := rfl
@[simp] theorem State.setHostClock_hostClock (s : State) (n : Millis) : (s.setHostClock n).hostClock = n := rfl

/-! ### setHostQueue -/

@[simp] theorem State.setHostQueue_v (s : State) (q : List HostEvent) : (s.setHostQueue q).v = s.v := rfl
@[simp] theorem State.setHostQueue_i (s : State) (q : List HostEvent) : (s.setHostQueue q).i = s.i := rfl
@[simp] theorem State.setHostQueue_pc (s : State) (q : List HostEvent) : (s.setHostQueue q).pc = s.pc := rfl
@[simp] theorem State.setHostQueue_sp (s : State) (q : List HostEvent) : (s.setHostQueue q).sp = s.sp := rfl
@[simp] theorem State.setHostQueue_stack (s : State) (q : List HostEvent) : (s.setHostQueue q).stack = s.stack := rfl
@[simp] theorem State.setHostQueue_dt (s : State) (q : List HostEvent) : (s.setHostQueue q).dt = s.dt := rfl
@[simp] theorem State.setHostQueue_st (s : State) (q : List HostEvent) : (s.setHostQueue q).st = s.st := rfl
@[simp] theorem State.setHostQueue_disp (s : State) (q : List HostEvent) : (s.setHostQueue q).disp = s.disp := rfl
@[simp] theorem State.setHostQueue_mem (s : State) (q : List HostEvent) : (s.setHostQueue q).mem = s.mem := rfl
@[simp] theorem State.setHostQueue_rng (s : State) (q : List HostEvent) : (s.setHostQueue q).rng = s.rng := rfl
@[simp] theorem State.setHostQueue_allowance (s : State) (q : List HostEvent) : (s.setHostQueue q).allowance = s.allowance := rfl
@[simp] theorem State.setHostQueue_lastCheck (s : State) (q : List HostEvent) : (s.setHostQueue q).lastCheck = s.lastCheck := rfl
@[simp] theorem State.setHostQueue_tc (s : State) (q : List HostEvent) : (s.setHostQueue q).tc = s.tc := rfl
@[simp] theorem State.setHostQueue_keySlot (s : State) (q : List HostEvent) : (s.setHostQueue q).keySlot = s.keySlot := rfl
@[simp] theorem State.setHostQueue_playing (s : State) (q : List HostEvent) : (s.setHostQueue q).playing = s.playing := rfl
@[simp] theorem State.setHostQueue_runState (s : State) (q : List HostEvent) : (s.setHostQueue q).runState = s.runState := rfl
@[simp] theorem State.setHostQueue_waitX (s : State) (q : List HostEvent) : (s.setHostQueue q).waitX = s.waitX := rfl
@[simp] theorem State.setHostQueue_faultCode (s : State) (q : List HostEvent) : (s.setHostQueue q).faultCode = s.faultCode := rfl
@[simp] theorem State.setHostQueue_faultPc (s : State) (q : List HostEvent) : (s.setHostQueue q).faultPc = s.faultPc := rfl
@[simp] theorem State.setHostQueue_faultAddr (s : State) (q : List HostEvent) : (s.setHostQueue q).faultAddr = s.faultAddr := rfl
@[simp] theorem State.setHostQueue_loadFailed (s : State) (q : List HostEvent) : (s.setHostQueue q).loadFailed = s.loadFailed := rfl
@[simp] theorem State.setHostQueue_params (s : State) (q : List HostEvent) : (s.setHostQueue q).params = s.params := rfl
@[simp] theorem State.setHostQueue_hostQueue (s : State) (q : List HostEvent) : (s.setHostQueue q).hostQueue = q := rfl
@[simp] theorem State.setHostQueue_hostClock (s : State) (q : List HostEvent) : (s.setHostQueue q).hostClock = s.hostClock := rfl

end Sys2Proof.Machine
end

