-- ==== Sys2Proof/Laws/Memory.lean ====
section
/-! SUPPORT. The memory operations: a read after a write, and the canonical form kept by every write. -/

namespace Sys2Proof.Machine

variable {d : Nat → Byte}

/-! ### The list -/

theorem memRead_of_lt {lo a : Nat} {m : Memory} (hwf : memWfFrom d lo m = true) (ha : a < lo) :
    memRead d m a = d a := by
  induction m generalizing lo with
  | nil => rfl
  | cons e m ih =>
    obtain ⟨b, u⟩ := e
    simp only [memWfFrom, Bool.and_eq_true, decide_eq_true_eq] at hwf
    obtain ⟨⟨⟨hlo, -⟩, -⟩, hm⟩ := hwf
    have hne : a ≠ b := by omega
    simpa [memRead, hne] using ih hm (by omega)

/-- A write changes the byte at its address and no other. -/
theorem memRead_memInsert {lo a b : Nat} {w : Byte} {m : Memory} (hwf : memWfFrom d lo m = true) :
    memRead d (memInsert d m a w) b = if b = a then w else memRead d m b := by
  induction m generalizing lo with
  | nil =>
    by_cases hw : w = d a <;> by_cases hb : b = a <;> simp_all [memInsert, memRead]
  | cons e m ih =>
    obtain ⟨c, u⟩ := e
    simp only [memWfFrom, Bool.and_eq_true, decide_eq_true_eq] at hwf
    obtain ⟨⟨⟨hlo, hc⟩, hu⟩, hm⟩ := hwf
    by_cases hlt : a < c
    · have hm' : memWfFrom d c ((c, u) :: m) = true := by simp [memWfFrom, hc, hu, hm]
      have hd := memRead_of_lt (d := d) hm' hlt
      by_cases hw : w = d a
      · by_cases hb : b = a
        · subst hb
          simpa [memInsert, hlt, hw] using hd
        · simp [memInsert, hlt, hw, hb]
      · simp [memInsert, hlt, hw, memRead]
    · by_cases hac : a = c
      · subst hac
        have hd := memRead_of_lt (d := d) hm (Nat.lt_succ_self a)
        by_cases hw : w = d a
        · by_cases hb : b = a
          · subst hb
            simpa [memInsert, hw] using hd
          · simp [memInsert, hw, memRead, hb]
        · by_cases hb : b = a <;> simp [memInsert, hw, memRead, hb]
      · have hi := ih hm
        by_cases hb : b = c
        · have : b ≠ a := by omega
          simp [memInsert, hlt, hac, memRead, hb]
          omega
        · simp [memInsert, hlt, hac, memRead, hb, hi]

/-- A write to an address in memory keeps the canonical form. -/
theorem memWfFrom_memInsert {lo a : Nat} {w : Byte} {m : Memory} (hwf : memWfFrom d lo m = true) (hlo : lo ≤ a)
    (ha : a < Config.memSize) : memWfFrom d lo (memInsert d m a w) = true := by
  induction m generalizing lo with
  | nil => by_cases hw : w = d a <;> simp_all [memInsert, memWfFrom]
  | cons e m ih =>
    obtain ⟨c, u⟩ := e
    have hwf0 := hwf
    simp only [memWfFrom, Bool.and_eq_true, decide_eq_true_eq] at hwf
    obtain ⟨⟨⟨hc, hc'⟩, hu⟩, hm⟩ := hwf
    by_cases hlt : a < c
    · by_cases hw : w = d a
      · simpa [memInsert, hlt, hw] using hwf0
      · have : a + 1 ≤ c := hlt
        simp_all [memInsert, memWfFrom]
    · by_cases hac : a = c
      · subst hac
        by_cases hw : w = d a
        · have hmono : ∀ {l l' : Nat} {m : Memory}, l ≤ l' → memWfFrom d l' m = true → memWfFrom d l m = true := by
            intro l l' m hl h
            cases m with
            | nil => rfl
            | cons e m => simp_all [memWfFrom]; omega
          simpa [memInsert, hw] using hmono (Nat.le_succ_of_le hc) hm
        · simp_all [memInsert, memWfFrom]
      · have hi := ih hm (by omega)
        simp [memInsert, hlt, hac, memWfFrom, hc, hc', hu, hi]

theorem memWrite_wf {a : Nat} {w : Byte} {m : Memory} (hwf : Memory.wf d m = true) :
    Memory.wf d (memWrite d m a w) = true := by
  unfold memWrite
  split
  · exact memWfFrom_memInsert hwf (Nat.zero_le a) ‹_›
  · exact hwf

theorem memRead_memWrite {a b : Nat} {w : Byte} {m : Memory} (hwf : Memory.wf d m = true) :
    memRead d (memWrite d m a w) b = if b = a ∧ a < Config.memSize then w else memRead d m b := by
  unfold memWrite
  by_cases ha : a < Config.memSize
  · simp only [ha, and_true]
    exact memRead_memInsert hwf
  · simp [ha]

/-! ### The state -/

theorem reset_memWf : State.reset.memWf := by decide

theorem State.readByte_congr {s t : State} (hm : t.mem = s.mem) (hp : t.params = s.params) (a : Nat) :
    t.readByte a = s.readByte a := by simp [State.readByte, hm, hp]

theorem State.writeByte_memWf {s : State} (h : s.memWf) (a : Nat) (w : Byte) : (s.writeByte a w).memWf :=
  memWrite_wf h

/-- A byte reads as the latest write to it (R60). -/
theorem State.readByte_writeByte {s : State} (h : s.memWf) (a b : Nat) (w : Byte) :
    (s.writeByte a w).readByte b = if b = a ∧ a < Config.memSize then w else s.readByte b :=
  memRead_memWrite h

theorem State.writeBytes_memWf {s : State} (h : s.memWf) (a : Nat) (ws : List Byte) : (s.writeBytes a ws).memWf := by
  induction ws generalizing s a with
  | nil => exact h
  | cons w ws ih => exact ih (State.writeByte_memWf h a w) (a + 1)

/-- All that writes to consecutive addresses in memory do to the bytes. -/
theorem State.readByte_writeBytes {s : State} (h : s.memWf) (base b : Nat) (ws : List Byte)
    (hin : base + ws.length ≤ Config.memSize) :
    (s.writeBytes base ws).readByte b =
      if base ≤ b then (ws[b - base]?).getD (s.readByte b) else s.readByte b := by
  induction ws generalizing s base with
  | nil => simp [State.writeBytes]
  | cons w ws ih =>
    simp only [List.length_cons] at hin
    rw [State.writeBytes, ih (State.writeByte_memWf h base w) (base + 1) (by omega), State.readByte_writeByte h]
    have hb : base < Config.memSize := by omega
    rcases Nat.lt_trichotomy b base with hlt | rfl | hgt
    · rw [if_neg (by omega), if_neg (by omega), if_neg (by omega)]
    · rw [if_neg (by omega), if_pos ⟨rfl, hb⟩, if_pos (Nat.le_refl _)]
      simp
    · rw [if_pos (by omega), if_neg (by omega), if_pos (by omega)]
      obtain ⟨k, hk⟩ : ∃ k, b - base = k + 1 := ⟨b - base - 1, by omega⟩
      rw [show b - (base + 1) = k by omega, hk, List.getElem?_cons_succ]

/-- Writes to memory touch no other field. -/
theorem State.writeBytes_eq_setMem (s : State) (base : Nat) (ws : List Byte) :
    s.writeBytes base ws = s.setMem (s.writeBytes base ws).mem := by
  induction ws generalizing s base with
  | nil => rfl
  | cons w ws ih =>
    rw [State.writeBytes, ih (s.writeByte base w) (base + 1)]
    rfl

theorem State.readBytes_length (s : State) (base n : Nat) : (s.readBytes base n).length = n := by
  induction n generalizing base with
  | zero => rfl
  | succ n ih => simp [State.readBytes, ih]

theorem State.getElem?_readBytes (s : State) (base n k : Nat) :
    (s.readBytes base n)[k]? = if k < n then some (s.readByte (base + k)) else none := by
  induction n generalizing base k with
  | zero => simp [State.readBytes]
  | succ n ih =>
    cases k with
    | zero => simp [State.readBytes]
    | succ k =>
      rw [State.readBytes, List.getElem?_cons_succ, ih]
      simp [Nat.add_assoc, Nat.add_comm 1 k]

end Sys2Proof.Machine
end

