-- ==== Sys2Proof/Laws/Ops.lean ====
section
/-! SUPPORT. One lemma per shared operation that says all it can do: registers, the skip, checked accesses, key slot. -/

namespace Sys2Proof.Machine

/-! ### Registers -/

/-- A register reads as the latest write to it, and no other register changes. -/
@[simp] theorem State.reg_setReg (s : State) (x r : Reg) (w : Byte) :
    (s.setReg x w).reg r = if r = x then w else s.reg r := by
  simp only [State.reg, State.setReg, Fin.getElem_fin]
  by_cases h : r = x
  · subst h; simp
  · rw [if_neg h, Vector.getElem_set_ne]
    exact fun hv => h (Fin.ext hv.symm)

theorem State.reg_congr {s t : State} (h : t.v = s.v) (r : Reg) : t.reg r = s.reg r := by simp [State.reg, h]

/-- VF first, then V[x]: the result wins when x = F (R131). -/
@[simp] theorem State.reg_setFlagThenReg (s : State) (flag : Byte) (x : Reg) (w : Byte) (r : Reg) :
    (s.setFlagThenReg flag x w).reg r = if r = x then w else if r = regVF then flag else s.reg r := by
  simp [State.setFlagThenReg]

/-- Every register write leaves the other fields: the state is `s` with another register file. -/
theorem State.setFlagThenReg_eq (s : State) (flag : Byte) (x : Reg) (w : Byte) :
    s.setFlagThenReg flag x w = { s with v := (s.setFlagThenReg flag x w).v } := rfl

@[simp] theorem State.resultOnly_reg (s : State) (x r : Reg) (w : Byte) :
    (s.resultOnly x w).reg r = if r = x then w else s.reg r := by
  rw [State.resultOnly, State.reg_congr (State.advance_v _), State.reg_setReg]

@[simp] theorem State.resultOnly_pc (s : State) (x : Reg) (w : Byte) : (s.resultOnly x w).pc = s.pc + 2 := rfl

theorem State.resultOnly_eq (s : State) (x : Reg) (w : Byte) :
    s.resultOnly x w = { s with v := (s.resultOnly x w).v, pc := s.pc + 2 } := rfl

@[simp] theorem State.resultWithFlag_reg (s : State) (x r : Reg) (flag w : Byte) :
    (s.resultWithFlag x flag w).reg r = if r = x then w else if r = regVF then flag else s.reg r := by
  rw [State.resultWithFlag, State.reg_congr (State.advance_v _), State.reg_setFlagThenReg]

@[simp] theorem State.resultWithFlag_pc (s : State) (x : Reg) (flag w : Byte) :
    (s.resultWithFlag x flag w).pc = s.pc + 2 := rfl

theorem State.resultWithFlag_eq (s : State) (x : Reg) (flag w : Byte) :
    s.resultWithFlag x flag w = { s with v := (s.resultWithFlag x flag w).v, pc := s.pc + 2 } := rfl

/-- V[0], ..., V[x] as a list. -/
theorem State.getElem?_regsUpTo (s : State) (x : Reg) (k : Nat) :
    (s.regsUpTo x)[k]? = if h : k ≤ x.val then some (s.reg ⟨k, by omega⟩) else none := by
  have hx := x.isLt
  by_cases h : k ≤ x.val
  · have hk : k < 16 := by omega
    simp [State.regsUpTo, State.reg, show k < x.val + 1 by omega, h]
  · simp [State.regsUpTo, show ¬ k < x.val + 1 by omega, h]

theorem State.regsUpTo_length (s : State) (x : Reg) : (s.regsUpTo x).length = x.val + 1 := by
  have hx := x.isLt
  simp [State.regsUpTo]

/-- Loading registers writes the register file only. -/
theorem State.loadRegs_eq (s : State) (k : Nat) (ws : List Byte) :
    s.loadRegs k ws = { s with v := (s.loadRegs k ws).v } := by
  induction ws generalizing s k with
  | nil => rfl
  | cons w ws ih => rw [State.loadRegs, ih]; rfl

/-- All that loading V[k], V[k+1], ... does to the registers. -/
theorem State.reg_loadRegs (s : State) (k : Nat) (ws : List Byte) (hin : k + ws.length ≤ 16) (r : Reg) :
    (s.loadRegs k ws).reg r = if k ≤ r.val then (ws[r.val - k]?).getD (s.reg r) else s.reg r := by
  induction ws generalizing s k with
  | nil => simp [State.loadRegs]
  | cons w ws ih =>
    simp only [List.length_cons] at hin
    rw [State.loadRegs, ih _ _ (by omega), State.reg_setReg]
    have hk : (Fin.ofNat 16 k).val = k := Nat.mod_eq_of_lt (by omega)
    rcases Nat.lt_trichotomy r.val k with hlt | heq | hgt
    · have hne : r ≠ Fin.ofNat 16 k := fun h => by rw [h, hk] at hlt; omega
      rw [if_neg (by omega), if_neg hne, if_neg (by omega)]
    · have hr : r = Fin.ofNat 16 k := Fin.ext (heq.trans hk.symm)
      rw [if_neg (by omega), if_pos hr, if_pos (by omega)]
      simp [heq]
    · have hne : r ≠ Fin.ofNat 16 k := fun h => by rw [h, hk] at hgt; omega
      rw [if_pos (by omega), if_neg hne, if_pos (by omega)]
      obtain ⟨j, hj⟩ : ∃ j, r.val - k = j + 1 := ⟨r.val - k - 1, by omega⟩
      rw [show r.val - (k + 1) = j by omega, hj, List.getElem?_cons_succ]

/-! ### PC -/

/-- The skip class writes PC only (R96). -/
theorem State.skipIf_eq (s : State) (c : Bool) : s.skipIf c = s.setPc (if c then s.pc + 4 else s.pc + 2) := by
  cases c <;> rfl

/-! ### Checked accesses (R55, R56) -/

theorem rangeLegal_iff (base len : Nat) : rangeLegal base len = true ↔ len = 0 ∨ base + len ≤ Config.memSize := by
  simp [rangeLegal]

/-- Every address of a legal range is in memory. -/
theorem lt_memSize_of_rangeLegal {base len k : Nat} (h : rangeLegal base len = true) (hk : k < len) :
    base + k < Config.memSize := by
  rcases (rangeLegal_iff base len).1 h with h | h <;> omega

theorem State.checkedAccess_of_legal {s t : State} {c : FaultCode} {base len : Nat} (h : rangeLegal base len = true) :
    s.checkedAccess c base len t = t := by simp [State.checkedAccess, h]

theorem State.checkedAccess_of_illegal {s t : State} {c : FaultCode} {base len : Nat}
    (h : rangeLegal base len = false) : s.checkedAccess c base len t = s.raiseFault c (lowestIllegal base) := by
  simp [State.checkedAccess, h]

/-- A checked access is the effect or the fault, nothing else. -/
theorem State.checkedAccess_cases (s t : State) (c : FaultCode) (base len : Nat) :
    (rangeLegal base len = true ∧ s.checkedAccess c base len t = t) ∨
      (rangeLegal base len = false ∧ s.checkedAccess c base len t = s.raiseFault c (lowestIllegal base)) := by
  cases h : rangeLegal base len
  · exact .inr ⟨rfl, State.checkedAccess_of_illegal h⟩
  · exact .inl ⟨rfl, State.checkedAccess_of_legal h⟩

/-- The lowest illegal address of an illegal access fits in fault_addr (R42). -/
theorem lowestIllegal_toNat (w : Word) : (BitVec.ofNat 16 (lowestIllegal w.toNat)).toNat = lowestIllegal w.toNat := by
  have := w.isLt
  simp [lowestIllegal, Config.memSize]
  omega

/-! ### Key slot and generator -/

@[simp] theorem State.keyTake_fst (s : State) : s.keyTake.1 = s.keySlot := rfl

@[simp] theorem State.rngDraw_fst (s : State) : s.rngDraw.1 = (Config.rngNext s.rng).1 := rfl

/-- A key matches V[x] exactly when the slot holds the key whose code V[x] is (R196). -/
theorem keyMatches_iff (k : Option Nibble) (w : Byte) :
    keyMatches k w = true ↔ ∃ key, k = some key ∧ key.toNat = w.toNat := by
  cases k with
  | none => simp [keyMatches]
  | some key =>
    have := key.isLt
    have hm : (key.setWidth 8).toNat = key.toNat := by simp; omega
    constructor
    · exact fun h => ⟨key, rfl, by rw [← hm, eq_of_beq h]⟩
    · rintro ⟨key', h, hw⟩
      cases h
      exact beq_iff_eq.2 (BitVec.eq_of_toNat_eq (hm.trans hw))

/-! ### Flags -/

@[simp] theorem flagByte_toNat (b : Bool) : (flagByte b).toNat = if b then 1 else 0 := by cases b <;> rfl

theorem shrFlag_toNat (a : Byte) : (shrFlag a).toNat = a.toNat % 2 := by
  simp [shrFlag, Nat.and_one_is_mod]

theorem shlFlag_toNat (a : Byte) : (shlFlag a).toNat = a.toNat / 128 := by
  have := a.isLt
  simp [shlFlag, Nat.and_one_is_mod, Nat.shiftRight_eq_div_pow]
  omega

/-! ### Timers and completion -/

@[simp] theorem countDown_toNat (w : Byte) : (countDown w).toNat = w.toNat - 1 := by
  have := w.isLt
  unfold countDown
  split
  · subst_vars; rfl
  · rename_i h
    have : w.toNat ≠ 0 := fun h0 => h (BitVec.eq_of_toNat_eq h0)
    rw [BitVec.toNat_sub]
    simp
    omega

/-- A completion leaves tc below TIMER_DIVIDER (R36). -/
theorem State.bumpCadence_tc_lt (s : State) : s.bumpCadence.tc < s.params.timerDivider.val :=
  Nat.mod_lt _ s.params.timerDivider.property

/-- All that a completion does: the cadence counter moves, and at 0 the timers do (R97). -/
theorem State.completeInstruction_eq (s : State) :
    s.completeInstruction =
      { s with
        tc := s.bumpCadence.tc
        dt := if s.bumpCadence.tc = 0 then countDown s.dt else s.dt
        st := if s.bumpCadence.tc = 0 then countDown s.st else s.st
        playing := if s.bumpCadence.tc = 0 then decide (0 < (countDown s.st).toNat) else s.playing } := by
  unfold State.completeInstruction
  split <;> rfl

end Sys2Proof.Machine
end

