-- ==== Sys2Proof/Laws/Draw.lean ====
section
/-! SUPPORT. A sprite pixel, a sprite row and a whole sprite: what each does to every pixel of the buffer and to the collision
flag (R182 to R185). -/

namespace Sys2Proof.Machine

theorem getElem_setPixel (d : Display) (c c' : Fin 64) (r r' : Fin 32) (b : Bool) :
    (setPixel d c r b)[c'][r'] = if c' = c ∧ r' = r then b else d[c'][r'] := by
  simp only [setPixel, Fin.getElem_fin, Vector.getElem_set]
  by_cases hc : c.val = c'.val
  · have hc' : c' = c := Fin.ext hc.symm
    subst hc'
    by_cases hr : r.val = r'.val
    · have hr' : r' = r := Fin.ext hr.symm
      simp [hr']
    · have hr' : ¬ r' = r := fun h => hr (by rw [h])
      simp [hr, hr']
  · have hc' : ¬ c' = c := fun h => hc (by rw [h])
    simp [hc, hc']

@[simp] theorem getElem_clearDisplay (c : Fin 64) (r : Fin 32) : clearDisplay[c][r] = false := by
  simp [clearDisplay]

/-- A set bit on the grid flips its own pixel; nothing else changes. -/
theorem getElem_drawPixel (bit : Bool) (px py : Nat) (acc : Display × Bool) (c : Fin 64) (r : Fin 32) :
    (drawPixel bit px py acc).1[c][r] = (acc.1[c][r] ^^ (bit && decide (c.val = px) && decide (r.val = py))) := by
  unfold drawPixel
  by_cases h : px < 64 ∧ py < 32
  · cases bit with
    | false => simp [h]
    | true =>
      simp only [h, and_self, ↓reduceDIte, ↓reduceIte, Bool.true_and]
      rw [getElem_setPixel]
      by_cases hc : c.val = px ∧ r.val = py
      · obtain ⟨rfl, rfl⟩ := hc
        simp
      · have : ¬ (c = ⟨px, h.1⟩ ∧ r = ⟨py, h.2⟩) := fun hh => hc ⟨by rw [hh.1], by rw [hh.2]⟩
        rw [if_neg this]
        by_cases h1 : c.val = px <;> by_cases h2 : r.val = py <;> simp_all
  · have hc : ¬ (c.val = px ∧ r.val = py) := fun hh => h ⟨hh.1 ▸ c.isLt, hh.2 ▸ r.isLt⟩
    have hb : (decide (c.val = px) && decide (r.val = py)) = false := by simpa using hc
    rw [dif_neg h, Bool.and_assoc, hb]
    simp

/-- The collision flag after one sprite pixel: it was set before, or the pixel flipped one that was on (R185). -/
theorem drawPixel_collision (bit : Bool) (px py : Nat) (acc : Display × Bool) :
    (drawPixel bit px py acc).2 = true ↔
      acc.2 = true ∨ (bit = true ∧ ∃ (c : Fin 64) (r : Fin 32), c.val = px ∧ r.val = py ∧ acc.1[c][r] = true) := by
  unfold drawPixel
  by_cases h : px < 64 ∧ py < 32
  · cases bit with
    | false => simp [h]
    | true =>
      simp only [h, and_self, ↓reduceDIte, ↓reduceIte, Bool.or_eq_true, true_and]
      constructor
      · rintro (h1 | h1)
        · exact .inl h1
        · exact .inr ⟨⟨px, h.1⟩, ⟨py, h.2⟩, rfl, rfl, h1⟩
      · rintro (h1 | ⟨c, r, rfl, rfl, h1⟩)
        · exact .inl h1
        · exact .inr h1
  · simp only [h, ↓reduceDIte]
    constructor
    · exact .inl
    · rintro (h1 | ⟨-, c, r, hc, hr, -⟩)
      · exact h1
      · exact absurd ⟨hc ▸ c.isLt, hr ▸ r.isLt⟩ h

/-- Whether the columns `lo`, ..., `lo + n - 1` of a sprite row drawn at (ox, py) cover the pixel (c, r). -/
def columnsCover (ox py : Nat) (row : Byte) (lo n : Nat) (c : Fin 64) (r : Fin 32) : Bool :=
  decide (r.val = py) && decide (ox + lo ≤ c.val) && decide (c.val < ox + lo + n) && spriteBit row (c.val - ox)

/-- All that the columns of one sprite row do to the buffer. -/
theorem getElem_drawColumns (ox py : Nat) (row : Byte) (lo n : Nat) (acc : Display × Bool) (c : Fin 64) (r : Fin 32) :
    (drawColumns ox py row lo n acc).1[c][r] = (acc.1[c][r] ^^ columnsCover ox py row lo n c r) := by
  induction n generalizing lo acc with
  | zero =>
    have : columnsCover ox py row lo 0 c r = false := by
      simp only [columnsCover, Bool.and_eq_false_iff, decide_eq_false_iff_not]; omega
    simp [drawColumns, this]
  | succ n ih =>
    rw [drawColumns, ih, getElem_drawPixel, Bool.xor_assoc]
    congr 1
    by_cases hr : r.val = py
    · by_cases hc : c.val = ox + lo
      · have : c.val - ox = lo := by omega
        simp [columnsCover, hr, hc]
      · by_cases h1 : ox + (lo + 1) ≤ c.val
        · simp [columnsCover, hr, hc, h1, show ox + lo ≤ c.val by omega, show ox + (lo + 1) + n = ox + lo + (n + 1) by omega]
        · simp [columnsCover, hr, hc, h1, show ¬ ox + lo ≤ c.val by omega]
    · simp [columnsCover, hr]

/-- The collision flag after the columns of one sprite row. -/
theorem drawColumns_collision (ox py : Nat) (row : Byte) (lo n : Nat) (acc : Display × Bool) :
    (drawColumns ox py row lo n acc).2 = true ↔
      acc.2 = true ∨ ∃ (c : Fin 64) (r : Fin 32), columnsCover ox py row lo n c r = true ∧ acc.1[c][r] = true := by
  induction n generalizing lo acc with
  | zero =>
    simp only [drawColumns, columnsCover, Bool.and_eq_true, decide_eq_true_eq]
    constructor
    · exact .inl
    · rintro (h | ⟨c, r, ⟨⟨⟨-, h1⟩, h2⟩, -⟩, -⟩)
      · exact h
      · omega
  | succ n ih =>
    rw [drawColumns, ih, drawPixel_collision, or_assoc]
    simp only [getElem_drawPixel]
    refine or_congr Iff.rfl ⟨?_, ?_⟩
    · rintro (⟨hb, c, r, hc, hr, ho⟩ | ⟨c, r, hcov, ho⟩)
      · refine ⟨c, r, ?_, ho⟩
        have : c.val - ox = lo := by omega
        simp [columnsCover, hr, this, hb]; omega
      · simp only [columnsCover, Bool.and_eq_true, decide_eq_true_eq] at hcov
        obtain ⟨⟨⟨h1, h2⟩, h3⟩, h4⟩ := hcov
        have hne : c.val ≠ ox + lo := by omega
        refine ⟨c, r, ?_, by simpa [hne] using ho⟩
        simp [columnsCover, h1, h4]; omega
    · rintro ⟨c, r, hcov, ho⟩
      simp only [columnsCover, Bool.and_eq_true, decide_eq_true_eq] at hcov
      obtain ⟨⟨⟨h1, h2⟩, h3⟩, h4⟩ := hcov
      by_cases hc : c.val = ox + lo
      · have : c.val - ox = lo := by omega
        exact .inl ⟨this ▸ h4, c, r, hc, h1, ho⟩
      · refine .inr ⟨c, r, ?_, by simpa [hc] using ho⟩
        simp [columnsCover, h1, h4]; omega

/-- Whether a sprite of these rows drawn at (ox, py) covers the pixel (c, r). -/
def rowsCover (ox py : Nat) (rows : List Byte) (c : Fin 64) (r : Fin 32) : Bool :=
  decide (py ≤ r.val) && match rows[r.val - py]? with
    | some row => columnsCover ox r.val row 0 8 c r
    | none => false

theorem rowsCover_cons (ox py : Nat) (row : Byte) (rows : List Byte) (c : Fin 64) (r : Fin 32) :
    rowsCover ox py (row :: rows) c r = (columnsCover ox py row 0 8 c r ^^ rowsCover ox (py + 1) rows c r) ∧
      (columnsCover ox py row 0 8 c r = true → rowsCover ox (py + 1) rows c r = false) := by
  rcases Nat.lt_trichotomy r.val py with h | h | h
  · simp [rowsCover, columnsCover, show ¬ py ≤ r.val by omega, show ¬ py + 1 ≤ r.val by omega, show ¬ r.val = py by omega]
  · simp [rowsCover, columnsCover, h]
  · obtain ⟨k, hk⟩ : ∃ k, r.val - py = k + 1 := ⟨r.val - py - 1, by omega⟩
    simp [rowsCover, columnsCover, show py ≤ r.val by omega, show py + 1 ≤ r.val by omega, show ¬ r.val = py by omega, hk,
      show r.val - (py + 1) = k by omega]

/-- All that the rows of a sprite do to the buffer (R182). -/
theorem getElem_drawRows (ox py : Nat) (rows : List Byte) (acc : Display × Bool) (c : Fin 64) (r : Fin 32) :
    (drawRows ox py rows acc).1[c][r] = (acc.1[c][r] ^^ rowsCover ox py rows c r) := by
  induction rows generalizing py acc with
  | nil => simp [drawRows, rowsCover]
  | cons row rows ih => rw [drawRows, ih, getElem_drawColumns, (rowsCover_cons ox py row rows c r).1, Bool.xor_assoc]

/-- The collision flag after the rows of a sprite (R185). -/
theorem drawRows_collision (ox py : Nat) (rows : List Byte) (acc : Display × Bool) :
    (drawRows ox py rows acc).2 = true ↔
      acc.2 = true ∨ ∃ (c : Fin 64) (r : Fin 32), rowsCover ox py rows c r = true ∧ acc.1[c][r] = true := by
  induction rows generalizing py acc with
  | nil => simp [drawRows, rowsCover]
  | cons row rows ih =>
    rw [drawRows, ih, drawColumns_collision, or_assoc]
    refine or_congr Iff.rfl ⟨?_, ?_⟩
    · rintro (⟨c, r, hcov, ho⟩ | ⟨c, r, hcov, ho⟩) <;> obtain ⟨h1, h2⟩ := rowsCover_cons ox py row rows c r
      · exact ⟨c, r, by rw [h1, hcov, h2 hcov]; rfl, ho⟩
      · have hn : columnsCover ox py row 0 8 c r = false := by
          by_contra hn; rw [h2 (by simpa using hn)] at hcov; cases hcov
        rw [getElem_drawColumns, hn, Bool.xor_false] at ho
        exact ⟨c, r, by rw [h1, hn, hcov]; rfl, ho⟩
    · rintro ⟨c, r, hcov, ho⟩
      obtain ⟨h1, h2⟩ := rowsCover_cons ox py row rows c r
      cases hn : columnsCover ox py row 0 8 c r
      · exact .inr ⟨c, r, by simpa [h1, hn] using hcov, by rw [getElem_drawColumns, hn, Bool.xor_false]; exact ho⟩
      · exact .inl ⟨c, r, hn, ho⟩

end Sys2Proof.Machine
end

