-- ==== Sys2Proof/Laws/Governor.lean ====
section
/-! SUPPORT. The governor's rational operations are the library's, and all that a consult can answer (R261). -/

namespace Sys2Proof.Machine

@[simp] theorem ratAdd_eq (a b : Rat) : ratAdd a b = a + b := by rw [ratAdd, Rat.add_def']

@[simp] theorem ratSub_eq (a b : Rat) : ratSub a b = a - b := by rw [ratSub, Rat.sub_def']

@[simp] theorem ratNat_eq (n : Nat) : mkRat n 1 = (n : Rat) := by
  rw [Rat.mkRat_eq_div]; simp

theorem ratScale_eq (a : Rat) (n d : Nat) : ratScale a n d = a * n / d := by
  rw [ratScale, Rat.mkRat_eq_div]
  push_cast
  rw [mul_div_mul_comm, Rat.num_div_den, mul_div_assoc]

@[simp] theorem ratLe_eq (a b : Rat) : ratLe a b = decide (a ≤ b) := by simp [ratLe, Rat.le_iff]

@[simp] theorem ratMin_eq (a b : Rat) : ratMin a b = min a b := by
  simp [ratMin, min_def]

@[simp] theorem ratMax_eq (a b : Rat) : ratMax a b = max a b := by
  simp [ratMax, max_def]

/-- The refilled allowance, in the library's operations. -/
theorem State.refilled_eq (s : State) (now : Millis) :
    s.refilled now =
      min (s.params.govRate : Rat)
        (s.allowance + max 0 (now - s.lastCheck) * s.params.govRate / s.params.govPeriod.val) := by
  simp [State.refilled, ratScale_eq]

/-- A consult grants or denies, and writes the governor's two fields only. -/
theorem State.governorConsult_cases (s : State) (now : Millis) :
    (1 ≤ s.refilled now ∧
        s.governorConsult now = (true, s.setGovernor (s.refilled now - 1) (max s.lastCheck now))) ∨
      (s.refilled now < 1 ∧ s.governorConsult now = (false, s.setGovernor (s.refilled now) (max s.lastCheck now))) := by
  by_cases h : 1 ≤ s.refilled now
  · exact .inl ⟨h, by simp [State.governorConsult, h]⟩
  · exact .inr ⟨not_le.1 h, by simp [State.governorConsult, h]⟩

end Sys2Proof.Machine
end

