-- ==== Sys2Proof/Laws/Driver.lean ====
section
/-! SUPPORT. What a step can do: the host move it takes, and in a tick the run state that decides (R90, R98 to R100). -/

namespace Sys2Proof.Machine

theorem step_of_queued {s : State} {e : HostEvent} {q : List HostEvent} (h : s.hostQueue = e :: q) :
    step s = (s.setHostQueue q).hostMove e := by
  simp [step, driverStep, h]

theorem step_of_empty {s : State} (h : s.hostQueue = []) : step s = s.hostMove (.tick s.nextTick) := by
  simp [step, driverStep, h]

/-- Every step is one move of the host. -/
theorem step_cases (s : State) :
    (∃ e q, s.hostQueue = e :: q ∧ step s = (s.setHostQueue q).hostMove e) ∨
      (s.hostQueue = [] ∧ step s = (s.setHostClock s.nextTick).tick s.nextTick) := by
  cases h : s.hostQueue with
  | nil => exact .inr ⟨rfl, step_of_empty h⟩
  | cons e q => exact .inl ⟨e, q, rfl, step_of_queued h⟩

/-- A step whose move is a tick is that tick. -/
theorem step_of_tickComes {s u : State} {now : Millis} (h : TickComes s now u) : step s = u.tick now := by
  rcases h with ⟨q, hq, rfl⟩ | ⟨hq, rfl, rfl⟩
  · exact step_of_queued hq
  · exact step_of_empty hq

/-- A tick that comes changes the model's host fields only. -/
theorem TickComes.eq {s u : State} {now : Millis} (h : TickComes s now u) :
    u = { s with hostQueue := u.hostQueue, hostClock := now } := by
  rcases h with ⟨q, -, rfl⟩ | ⟨-, -, rfl⟩ <;> rfl

/-- All that a tick can do. -/
theorem State.tick_cases (s : State) (now : Millis) :
    ((s.runState = .idle ∨ s.runState = .fault) ∧ s.tick now = .next s) ∨
      (s.runState = .waitKey ∧ s.tick now = .next s.pollKey) ∨
      (s.runState = .run ∧ (s.governorConsult now).1 = false ∧ s.tick now = .next (s.governorConsult now).2) ∨
      (s.runState = .run ∧ (s.governorConsult now).1 = true ∧ s.tick now = (s.governorConsult now).2.runInstruction) := by
  unfold State.tick
  cases h : s.runState
  · exact .inl ⟨.inl rfl, rfl⟩
  · cases hg : (s.governorConsult now).1
    · exact .inr (.inr (.inl ⟨rfl, rfl, by simp [hg]⟩))
    · exact .inr (.inr (.inr ⟨rfl, rfl, by simp [hg]⟩))
  · exact .inr (.inl ⟨rfl, rfl⟩)
  · exact .inl ⟨.inr rfl, rfl⟩

theorem State.fetch_of_lt {s : State} (h : s.pc.toNat + 1 < Config.memSize) :
    s.fetch = .opcode (opcodeOfBytes (s.readByte s.pc.toNat) (s.readByte (s.pc.toNat + 1))) := if_pos h

theorem State.fetch_of_not_lt {s : State} (h : ¬ s.pc.toNat + 1 < Config.memSize) :
    s.fetch = .illegal (lowestIllegal s.pc.toNat) := if_neg h

/-- All that a granted tick can do. -/
theorem State.runInstruction_cases (s : State) :
    (Config.memSize ≤ s.pc.toNat + 1 ∧
        s.runInstruction = .next (s.raiseFault .addrFetch (lowestIllegal s.pc.toNat))) ∨
      (∃ op, s.fetch = .opcode op ∧ s.pc.toNat + 1 < Config.memSize ∧
        s.runInstruction = mapNext State.afterExecute (execDecoded (decode s.params.decode59Strict op) s)) := by
  by_cases h : s.pc.toNat + 1 < Config.memSize
  · have hf := State.fetch_of_lt h
    exact .inr ⟨_, hf, h, by simp only [State.runInstruction, hf]⟩
  · have hf := State.fetch_of_not_lt h
    exact .inl ⟨Nat.le_of_not_lt h, by simp only [State.runInstruction, hf]⟩

/-- All that a poll can do (R199). -/
theorem State.pollKey_cases (s : State) :
    (∃ k, s.keySlot = some k ∧
        s.pollKey = ((s.keyTake.2.deliverKey s.waitX k).resume).completeInstruction) ∨
      (s.keySlot = none ∧ s.pollKey = s.keyTake.2) := by
  cases h : s.keySlot with
  | none => exact .inr ⟨rfl, by simp [State.pollKey, h]⟩
  | some k => exact .inl ⟨k, rfl, by simp [State.pollKey, h]⟩

end Sys2Proof.Machine
end

