-- ==== Sys2Proof/Laws/PerInstr.lean ====
section
/-! SUPPORT. Per instruction: the encoded word has the bits that the instruction's row of the opcode table fixes. -/

namespace Sys2Proof.Laws.EncodeMatchesRow

/-- The word of `i` matches the row of `i` (R72, R75, R84). -/
def Statement (i : Instr) : Prop := matchesRow i (encode i)

theorem and_nibble (g : Nibble) : g &&& 0xF#4 = g := BitVec.and_allOnes (x := g)

theorem and_byte (kk : Byte) : kk &&& 0xFF#8 = kk := BitVec.and_allOnes (x := kk)

/-- Masking an NNN word to its group. -/
theorem mask_encNNN (g : Nibble) (nnn : Addr) : encNNN g nnn &&& 0xF000#16 = encNNN g 0 := by
  show (g ++ nnn : BitVec (4 + 12)) &&& (0xF#4 ++ 0#12) = g ++ 0#12
  rw [BitVec.and_append]
  simp [and_nibble g]

/-- Masking an XKK word to its group. -/
theorem mask_encXKK (g : Nibble) (x : Reg) (kk : Byte) : encXKK g x kk &&& 0xF000#16 = encXKK g 0 0 := by
  show (g ++ regBits x ++ kk : BitVec (4 + 4 + 8)) &&& (0xF#4 ++ 0#4 ++ 0#8) = g ++ 0#4 ++ 0#8
  rw [BitVec.and_append, BitVec.and_append]
  simp [and_nibble g]

/-- Masking an X word to its group and its low byte. -/
theorem mask_encX (g : Nibble) (x : Reg) (kk : Byte) : encXKK g x kk &&& 0xF0FF#16 = encXKK g 0 kk := by
  show (g ++ regBits x ++ kk : BitVec (4 + 4 + 8)) &&& (0xF#4 ++ 0#4 ++ 0xFF#8) = g ++ 0#4 ++ kk
  rw [BitVec.and_append, BitVec.and_append]
  simp [and_nibble g, and_byte kk]

/-- Masking an XY word to its group and its low nibble. -/
theorem mask_encXY (g : Nibble) (x y : Reg) (n : Nibble) : encXYN g x y n &&& 0xF00F#16 = encXYN g 0 0 n := by
  show (g ++ regBits x ++ regBits y ++ n : BitVec (4 + 4 + 4 + 4)) &&& (0xF#4 ++ 0#4 ++ 0#4 ++ 0xF#4) =
    g ++ 0#4 ++ 0#4 ++ n
  rw [BitVec.and_append, BitVec.and_append, BitVec.and_append]
  simp [and_nibble g, and_nibble n]

/-- Masking an XYN word to its group. -/
theorem mask_encXYN (g : Nibble) (x y : Reg) (n : Nibble) : encXYN g x y n &&& 0xF000#16 = encXYN g 0 0 0 := by
  show (g ++ regBits x ++ regBits y ++ n : BitVec (4 + 4 + 4 + 4)) &&& (0xF#4 ++ 0#4 ++ 0#4 ++ 0#4) =
    g ++ 0#4 ++ 0#4 ++ 0#4
  rw [BitVec.and_append, BitVec.and_append, BitVec.and_append]
  simp [and_nibble g]

theorem cls : Statement .cls := rfl
theorem ret : Statement .ret := rfl
theorem sys (nnn : Addr) : Statement (.sys nnn) := (mask_encNNN _ nnn).trans rfl
theorem jp (nnn : Addr) : Statement (.jp nnn) := (mask_encNNN _ nnn).trans rfl
theorem call (nnn : Addr) : Statement (.call nnn) := (mask_encNNN _ nnn).trans rfl
theorem seImm (x : Reg) (kk : Byte) : Statement (.seImm x kk) := (mask_encXKK _ x kk).trans rfl
theorem sneImm (x : Reg) (kk : Byte) : Statement (.sneImm x kk) := (mask_encXKK _ x kk).trans rfl
theorem seReg (x : Reg) (y : Reg) : Statement (.seReg x y) := (mask_encXY _ x y _).trans rfl
theorem ldImm (x : Reg) (kk : Byte) : Statement (.ldImm x kk) := (mask_encXKK _ x kk).trans rfl
theorem addImm (x : Reg) (kk : Byte) : Statement (.addImm x kk) := (mask_encXKK _ x kk).trans rfl
theorem ldReg (x : Reg) (y : Reg) : Statement (.ldReg x y) := (mask_encXY _ x y _).trans rfl
theorem orReg (x : Reg) (y : Reg) : Statement (.orReg x y) := (mask_encXY _ x y _).trans rfl
theorem andReg (x : Reg) (y : Reg) : Statement (.andReg x y) := (mask_encXY _ x y _).trans rfl
theorem xorReg (x : Reg) (y : Reg) : Statement (.xorReg x y) := (mask_encXY _ x y _).trans rfl
theorem addReg (x : Reg) (y : Reg) : Statement (.addReg x y) := (mask_encXY _ x y _).trans rfl
theorem sub (x : Reg) (y : Reg) : Statement (.sub x y) := (mask_encXY _ x y _).trans rfl
theorem shr (x : Reg) (y : Reg) : Statement (.shr x y) := (mask_encXY _ x y _).trans rfl
theorem subn (x : Reg) (y : Reg) : Statement (.subn x y) := (mask_encXY _ x y _).trans rfl
theorem shl (x : Reg) (y : Reg) : Statement (.shl x y) := (mask_encXY _ x y _).trans rfl
theorem sneReg (x : Reg) (y : Reg) : Statement (.sneReg x y) := (mask_encXY _ x y _).trans rfl
theorem ldI (nnn : Addr) : Statement (.ldI nnn) := (mask_encNNN _ nnn).trans rfl
theorem jpV0 (nnn : Addr) : Statement (.jpV0 nnn) := (mask_encNNN _ nnn).trans rfl
theorem rnd (x : Reg) (kk : Byte) : Statement (.rnd x kk) := (mask_encXKK _ x kk).trans rfl
theorem drw (x : Reg) (y : Reg) (n : Nibble) : Statement (.drw x y n) := (mask_encXYN _ x y n).trans rfl
theorem skp (x : Reg) : Statement (.skp x) := (mask_encX _ x _).trans rfl
theorem sknp (x : Reg) : Statement (.sknp x) := (mask_encX _ x _).trans rfl
theorem ldVxDt (x : Reg) : Statement (.ldVxDt x) := (mask_encX _ x _).trans rfl
theorem ldVxK (x : Reg) : Statement (.ldVxK x) := (mask_encX _ x _).trans rfl
theorem ldDtVx (x : Reg) : Statement (.ldDtVx x) := (mask_encX _ x _).trans rfl
theorem ldStVx (x : Reg) : Statement (.ldStVx x) := (mask_encX _ x _).trans rfl
theorem addI (x : Reg) : Statement (.addI x) := (mask_encX _ x _).trans rfl
theorem ldF (x : Reg) : Statement (.ldF x) := (mask_encX _ x _).trans rfl
theorem ldB (x : Reg) : Statement (.ldB x) := (mask_encX _ x _).trans rfl
theorem ldMemVx (x : Reg) : Statement (.ldMemVx x) := (mask_encX _ x _).trans rfl
theorem ldVxMem (x : Reg) : Statement (.ldVxMem x) := (mask_encX _ x _).trans rfl

end Sys2Proof.Laws.EncodeMatchesRow
end

