-- ==== Sys2Proof/Tests/Slice0.lean ====
section
/-! SUPPORT. Tests: well-formedness, a word of every row, one-step vectors of 95_test_vectors.md (Part L2 unless a test
names another), and for every statement with hypotheses a state and operands that meet them. Every expected value is the
spec's own. -/

namespace Sys2Proof.Tests

open Sys2Proof Sys2Proof.Machine

/-! ## Well-formedness -/

theorem test_wf_refuses_cls_as_sys : (Instr.sys 0x0E0).wf = false := by decide
theorem test_wf_refuses_ret_as_sys : (Instr.sys 0x0EE).wf = false := by decide

/-! ## Decoding: a word of every row, written out from the encodings of 30_encoding.md R75 -/

theorem test_decode_group0 :
    decode true 0x00E0 = .instr .cls ∧ decode true 0x00EE = .instr .ret ∧ decode true 0x0123 = .instr (.sys 0x123) := by
  decide

theorem test_decode_control :
    decode true 0x1234 = .instr (.jp 0x234) ∧ decode true 0x2300 = .instr (.call 0x300) ∧
    decode true 0x3F01 = .instr (.seImm 15 0x01) ∧ decode true 0x4342 = .instr (.sneImm 3 0x42) ∧
    decode true 0x5120 = .instr (.seReg 1 2) ∧ decode true 0x9120 = .instr (.sneReg 1 2) ∧
    decode true 0xB300 = .instr (.jpV0 0x300) := by decide

theorem test_decode_registers :
    decode true 0x6342 = .instr (.ldImm 3 0x42) ∧ decode true 0x7F02 = .instr (.addImm 15 0x02) ∧
    decode true 0x8130 = .instr (.ldReg 1 3) ∧ decode true 0x8121 = .instr (.orReg 1 2) ∧
    decode true 0x8122 = .instr (.andReg 1 2) ∧ decode true 0x8123 = .instr (.xorReg 1 2) ∧
    decode true 0x80F4 = .instr (.addReg 0 15) ∧ decode true 0x8F15 = .instr (.sub 15 1) ∧
    decode true 0x8236 = .instr (.shr 2 3) ∧ decode true 0x8017 = .instr (.subn 0 1) ∧
    decode true 0x820E = .instr (.shl 2 0) ∧ decode true 0xC40F = .instr (.rnd 4 0x0F) := by decide

theorem test_decode_index_and_display :
    decode true 0xA300 = .instr (.ldI 0x300) ∧ decode true 0xF21E = .instr (.addI 2) ∧
    decode true 0xF029 = .instr (.ldF 0) ∧ decode true 0xFA33 = .instr (.ldB 10) ∧
    decode true 0xF155 = .instr (.ldMemVx 1) ∧ decode true 0xF265 = .instr (.ldVxMem 2) ∧
    decode true 0xD125 = .instr (.drw 1 2 5) := by decide

theorem test_decode_input_and_timers :
    decode true 0xE09E = .instr (.skp 0) ∧ decode true 0xE0A1 = .instr (.sknp 0) ∧
    decode true 0xF107 = .instr (.ldVxDt 1) ∧ decode true 0xF30A = .instr (.ldVxK 3) ∧
    decode true 0xF015 = .instr (.ldDtVx 0) ∧ decode true 0xF018 = .instr (.ldStVx 0) := by decide

theorem test_decode_undefined :
    decode true 0x8128 = .undefined .group8 ∧ decode true 0x812F = .undefined .group8 ∧
    decode true 0xE0FF = .undefined .groupE ∧ decode true 0xF0FF = .undefined .groupF ∧
    decode true 0x5121 = .undefined .group5 ∧ decode true 0x912F = .undefined .group9 ∧
    decode false 0x5121 = .instr (.seReg 1 2) ∧ decode false 0x912F = .instr (.sneReg 1 2) := by decide

/-- R84's two worked encodings. -/
theorem test_encode : encode (.drw 1 2 5) = 0xD125 ∧ encode (.ldImm 3 0x42) = 0x6342 := by decide

/-- R82's spelling, in R84's two examples and two loads that share a mnemonic. -/
theorem test_asm :
    (Instr.ldImm 3 0x42).asm = "LD V3,0x42" ∧ (Instr.drw 1 2 5).asm = "DRW V1,V2,5" ∧
    (Instr.ldMemVx 15).asm = "LD [I],VF" ∧ (Instr.cls).asm = "CLS" := by decide

/-! ## One step -/

/-- A next state, or the reset state where there is none. -/
def after (r : Result) : State :=
  match r with
  | .next t => t
  | .fault _ | .refused _ => State.reset

/-- The step of `s` with the opcode `w` at PC. -/
def vec (s : State) (w : Nat) : State := after (step (s.withFetchWord 16 w))

/-- The reset state in RUN. -/
def start : State := { State.reset with runState := .run }

/-- `start` with V[x] = a and V[y] = b. -/
def regs (x : Reg) (a : Byte) (y : Reg) (b : Byte) : State := (start.setReg x a).setReg y b

/-- `start` with I = i and V0 = a. -/
def at_ (i : Word) (a : Byte) : State := (start.setI i).setReg 0 a

/-- `start` with a sprite byte at 0x300 = I and an origin in V0, V1. -/
def sprite (row ox oy : Byte) : State := ((regs 0 ox 1 oy).setI 0x300).writeByte 0x300 row

/-- `start` with V0 = 5 and this key slot. -/
def slot (k : Option Nibble) : State := { start.setReg 0 5 with keySlot := k }

theorem test_sys_ignored : (vec start 0x0123).pc = 0x202 ∧ (vec start 0x0000).pc = 0x202 := by decide
theorem test_ret : (vec { start with sp := 1, stack := start.stack.set 0 0x204 } 0x00EE).pc = 0x206 := by decide
theorem test_ret_underflow : (vec start 0x00EE).status = ⟨.fault, 5, 0x200, 0⟩ := by decide
theorem test_jp : (vec start 0x1FFF).pc = 0xFFF ∧ (vec start 0x1FFF).runState = .run := by decide
theorem test_call : (vec start 0x2300).pc = 0x300 ∧ (vec start 0x2300).stack[0] = 0x200 := by decide
theorem test_call_overflow : (vec { start with sp := 16 } 0x2300).status = ⟨.fault, 4, 0x200, 0⟩ := by decide
theorem test_se_imm : (vec (regs 3 0x42 0 0) 0x3342).pc = 0x204 ∧ (vec (regs 3 0x41 0 0) 0x3342).pc = 0x202 := by decide
/-- PC = 0xFFC, V0 = 0 and 3000: a skip at the top of memory. -/
theorem test_skip_past_memory : (vec { start with pc := 0xFFC } 0x3000).pc = 0x1000 := by decide
theorem test_sne_imm : (vec (regs 3 0x41 0 0) 0x4342).pc = 0x204 ∧ (vec (regs 3 0x42 0 0) 0x4342).pc = 0x202 := by decide
theorem test_se_reg : (vec (regs 1 7 2 7) 0x5120).pc = 0x204 ∧ (vec (regs 1 7 2 7) 0x5121).pc = 0x202 := by decide
theorem test_sne_reg : (vec (regs 1 7 2 8) 0x9120).pc = 0x204 ∧ (vec (regs 1 7 2 8) 0x9110).pc = 0x202 := by decide
theorem test_jp_v0 : (vec (regs 0 0xFF 1 0) 0xBFFF).pc = 0x10FE := by decide

theorem test_ld_imm : (vec start 0x6342).reg 3 = 0x42 := by decide
theorem test_add_imm : (vec (regs 0 0xFF 15 0x55) 0x7001).reg 0 = 0 ∧ (vec (regs 0 0xFF 15 0x55) 0x7001).reg 15 = 0x55 := by
  decide
theorem test_ld_reg : (vec (regs 3 0x42 0 0) 0x8130).reg 1 = 0x42 := by decide
theorem test_or : (vec (regs 1 0x0F 2 0xF0) 0x8121).reg 1 = 0xFF := by decide
theorem test_and : (vec (regs 1 0x3C 2 0x0F) 0x8122).reg 1 = 0x0C := by decide
theorem test_xor : (vec (regs 1 0x3C 2 0x0F) 0x8123).reg 1 = 0x33 ∧ (vec (regs 1 0x3C 2 0x0F) 0x8113).reg 1 = 0 := by decide
theorem test_add_carry : (vec (regs 0 0x80 1 0x80) 0x8014).reg 0 = 0 ∧ (vec (regs 0 0x80 1 0x80) 0x8014).reg 15 = 1 := by
  decide
/-- x = F: the sum overwrites the carry. y = F: the old VF is read. -/
theorem test_add_vf : (vec (regs 15 0xFF 1 1) 0x8F14).reg 15 = 0 ∧ (vec (regs 0 0x10 15 1) 0x80F4).reg 0 = 0x11 := by decide
theorem test_sub : (vec (regs 0 1 1 2) 0x8015).reg 0 = 0xFF ∧ (vec (regs 0 5 1 3) 0x8015).reg 15 = 1 := by decide
theorem test_sub_equal : (vec (regs 0 7 15 1) 0x8005).reg 15 = 0 ∧ (vec (regs 15 9 1 2) 0x8F15).reg 15 = 7 := by decide
theorem test_shr : (vec (regs 2 4 3 0xFF) 0x8236).reg 2 = 2 ∧ (vec (regs 15 3 0 0) 0x8F06).reg 15 = 1 := by decide
theorem test_subn : (vec (regs 0 2 1 1) 0x8017).reg 0 = 0xFF ∧ (vec (regs 0 1 1 2) 0x8017).reg 15 = 1 := by decide
theorem test_shl : (vec (regs 2 0x81 0 0) 0x820E).reg 2 = 2 ∧ (vec (regs 2 0x81 0 0) 0x820E).reg 15 = 1 := by decide
/-- The drawn byte is free; the mask 0 gives 0 whatever it is. -/
theorem test_rnd_mask0 : (vec (regs 4 0xA7 0 0) 0xC400).reg 4 = 0 := by
  show (Config.rngNext 0).1 &&& 0 = 0
  simp

theorem test_ld_i : (vec start 0xA300).i = 0x300 := by decide
theorem test_add_i : (vec ((regs 2 1 15 0).setI 0xFFFF) 0xF21E).i = 0 ∧
    (vec ((regs 2 1 15 0).setI 0xFFF) 0xF21E).i = 0x1000 := by decide
theorem test_ld_f : (vec (regs 0 0x0A 1 0) 0xF029).i = 0x32 ∧ (vec (regs 0 0xFF 1 0) 0xF029).i = 0x4FB := by decide
theorem test_ld_b : (vec (at_ 0x300 205) 0xF033).readBytes 0x300 3 = [2, 0, 5] ∧
    (vec (at_ 0xFFD 0x7B) 0xF033).readBytes 0xFFD 3 = [1, 2, 3] := by decide
theorem test_ld_b_past_memory : (vec ((at_ 0xFFE 0x7B).writeByte 0xFFE 0xAA) 0xF033).status = ⟨.fault, 3, 0x200, 0x1000⟩ ∧
    (vec ((at_ 0xFFE 0x7B).writeByte 0xFFE 0xAA) 0xF033).readBytes 0xFFE 2 = [0xAA, 0] := by decide
theorem test_ld_mem_vx : (vec ((at_ 0x300 1).setReg 1 2) 0xF155).readBytes 0x300 3 = [1, 2, 0] ∧
    (vec ((at_ 0x300 0).setReg 15 0xEE) 0xFF55).readByte 0x30F = 0xEE := by decide
theorem test_ld_mem_vx_past_memory : (vec (at_ 0xFFF 0x5A) 0xF155).status = ⟨.fault, 3, 0x200, 0x1000⟩ ∧
    (vec (at_ 0xFFF 0x5A) 0xF055).readByte 0xFFF = 0x5A := by decide
/-- The first byte of the font, and its last. -/
theorem test_ld_vx_mem : (vec (at_ 0 0) 0xF065).reg 0 = 0xF0 ∧ (vec (at_ 0x4F 0) 0xF065).reg 0 = 0x80 := by decide
theorem test_ld_vx_mem_past_memory : (vec (at_ 0xFFE 0x11) 0xF265).status = ⟨.fault, 2, 0x200, 0x1000⟩ ∧
    (vec (at_ 0xFFE 0x11) 0xF265).reg 0 = 0x11 := by decide

theorem test_cls : (vec (start.setDisp (setPixel start.disp 63 31 true)) 0x00E0).disp = State.reset.disp := by decide
/-- 0xFF at (60, 0): four pixels on, the other four clipped, none wrapped to column 0. -/
theorem test_drw_clips : (vec (sprite 0xFF 0x3C 0) 0xD011).pixel 60 0 = true ∧
    (vec (sprite 0xFF 0x3C 0) 0xD011).pixel 0 0 = false := by decide
/-- 0x80 over a pixel that is on: off, with VF = 1. -/
theorem test_drw_collides :
    (vec ((sprite 0x80 0 0).setDisp (setPixel start.disp 0 0 true)) 0xD011).pixel 0 0 = false ∧
    (vec ((sprite 0x80 0 0).setDisp (setPixel start.disp 0 0 true)) 0xD011).reg 15 = 1 := by decide

theorem test_skp : (vec (slot (some 5)) 0xE09E).pc = 0x204 ∧ (vec (slot (some 5)) 0xE09E).keySlot = none := by decide
theorem test_skp_other_key : (vec (slot (some 6)) 0xE09E).pc = 0x202 ∧ (vec (slot (some 6)) 0xE09E).keySlot = none := by decide
theorem test_sknp : (vec (slot none) 0xE0A1).pc = 0x204 ∧ (vec (slot (some 5)) 0xE0A1).pc = 0x202 := by decide
theorem test_ld_vx_k : (vec (slot (some 0xA)) 0xF30A).reg 3 = 0x0A ∧ (vec (slot (some 0xA)) 0xF30A).pc = 0x202 := by decide
theorem test_ld_vx_k_waits : (vec start 0xF30A).runState = .waitKey ∧ (vec start 0xF30A).pc = 0x200 := by decide
/-- TC2: V1 takes DT from before the event. -/
theorem test_ld_vx_dt : (vec { start with dt := 3, tc := 4 } 0xF107).reg 1 = 3 ∧
    (vec { start with dt := 3, tc := 4 } 0xF107).dt = 2 := by decide
theorem test_ld_dt_vx : (vec { regs 0 3 1 0 with tc := 4 } 0xF015).dt = 2 ∧ (vec (regs 0 3 1 0) 0xF015).dt = 3 := by decide
theorem test_ld_st_vx : (vec (regs 0 0x0A 1 0) 0xF018).st = 10 ∧ (vec (regs 0 0x0A 1 0) 0xF018).playing = false := by decide
/-- TC5 and the slot-kept vector of E0FF. -/
theorem test_undefined : (vec { start with dt := 5, tc := 4 } 0xF0FF).dt = 4 ∧
    (vec (slot (some 5)) 0xE0FF).keySlot = some 5 := by decide

/-! ## The machine -/

/-- `s` with the host's next moves `q`. -/
def hosted (s : State) (q : List HostEvent) : State := { s with hostQueue := q }

/-- FV1's second tick: a fetch at 0xFFF. -/
theorem test_fetch_fault : (after (step (hosted { start with pc := 0xFFF } [.tick 0]))).status = ⟨.fault, 1, 0xFFF, 0x1000⟩ := by
  decide

/-- GV3 and GV4: 0.98 of a token is denied, a whole one is granted. -/
theorem test_governor_accrues :
    ({ start with allowance := 0 }.governorConsult 7).1 = false ∧
    ({ start with allowance := mkRat 98 100, lastCheck := 7 }.governorConsult (mkRat 50 7)).1 = true := by decide

/-- GV6 and GV7: a long wait is capped at 14, and time that goes backwards adds nothing. -/
theorem test_governor_caps :
    ({ start with allowance := 0, lastCheck := mkRat 50 7 }.governorConsult 10000).2.allowance = 13 ∧
    ({ start with allowance := 13, lastCheck := 10000 }.governorConsult 9000).2.lastCheck = 10000 := by decide

/-- KV3's poll. -/
theorem test_poll : (after (step (hosted { start with runState := .waitKey, waitX := 3, keySlot := some 9 } [.tick 0]))).reg 3 = 9 := by
  decide

/-- LR5: a reset keeps the key slot. -/
theorem test_reset_keeps_slot : (after (step (hosted (slot (some 3)) [.reset 5]))).keySlot = some 3 ∧
    (after (step (hosted (slot (some 3)) [.reset 5]))).reg 0 = 0 := by decide

/-- FV4's load: 6001 from IDLE. -/
theorem test_load_rom : (after (step (hosted State.reset [.loadRom [0x60, 0x01]]))).runState = .run ∧
    (after (step (hosted State.reset [.loadRom [0x60, 0x01]]))).readByte 0x201 = 0x01 := by decide

/-! ## Witnesses: for every statement with hypotheses, terms that meet them all

Each names its statement. A hypothesis that a record gives by rfl stands as the record. -/

/-- `start` with the bytes of an opcode at PC. -/
def coded (hi lo : Byte) : State := start.writeBytes start.pc.toNat [hi, lo]

/-- The same with a tick at time 0 queued. -/
def ticked (hi lo : Byte) : State := hosted (coded hi lo) [.tick 0]

/-- The tick of `ticked`, `waiting` and the like: the one move of the queue. -/
theorem comes_queued (s : State) (now : Millis) :
    TickComes (hosted s [.tick now]) now ((hosted s []).setHostClock now) := .inl ⟨[], rfl, rfl⟩

/-- The tick of an empty queue. -/
theorem comes_empty {s : State} (h : s.hostQueue = []) : TickComes s s.nextTick (s.setHostClock s.nextTick) :=
  .inr ⟨h, rfl, rfl⟩

theorem test_witness_decodeOfEncode :
    (Instr.sys 0x0E1).wf = true ∧ (Instr.drw 15 15 15).wf = true ∧ decode false (encode (.shl 15 15)) = .instr (.shl 15 15) := by
  decide

theorem test_witness_encodeOfDecode : decode true 0x0FFF = .instr (.sys 0xFFF) ∧ decode true 0x8FFE = .instr (.shl 15 15) := by
  decide

theorem test_witness_matchingRowDecides :
    matchesRow (.drw 0 0 0) 0xDFFF ∧ (0xDFFF#16).toNat / 4096 ≠ 0 ∧ matchesRow (.seReg 0 0) 0x5FF0 ∧
    (0x5FF0#16).toNat / 4096 ≠ 0 := by unfold matchesRow; decide

theorem test_witness_strictParameter :
    (0x500F#16).toNat / 4096 = 5 ∧ (0x500F#16).toNat % 16 ≠ 0 ∧ (0x9FF1#16).toNat / 4096 = 9 ∧ (0x9FF1#16).toNat % 16 ≠ 0 ∧
    (0x6001#16).toNat / 4096 ≠ 5 ∧ (0x6001#16).toNat / 4096 ≠ 9 ∧ (0x5FF0#16).toNat % 16 = 0 ∧ (0x9FF0#16).toNat % 16 = 0 := by
  decide

theorem test_witness_stepRunsDecodedInstruction :
    TickComes (ticked 0x63 0x42) 0 ((hosted (coded 0x63 0x42) []).setHostClock 0) ∧ (ticked 0x63 0x42).runState = .run ∧
    (((hosted (coded 0x63 0x42) []).setHostClock 0).governorConsult 0).1 = true ∧ (ticked 0x63 0x42).fetch = .opcode 0x6342 ∧
    decode (ticked 0x63 0x42).params.decode59Strict 0x6342 = .instr (.ldImm 3 0x42) :=
  ⟨comes_queued (coded 0x63 0x42) 0, by decide⟩

/-- The same with an empty host queue: the tick is at 10 ms. -/
theorem test_witness_stepRunsDecodedInstruction_emptyQueue :
    TickComes start start.nextTick (start.setHostClock start.nextTick) ∧ start.nextTick = 10 ∧ start.runState = .run ∧
    ((start.setHostClock start.nextTick).governorConsult start.nextTick).1 = true ∧ start.fetch = .opcode 0 ∧
    decode start.params.decode59Strict 0 = .instr (.sys 0) := ⟨comes_empty rfl, by decide⟩

theorem test_witness_undefinedOpcodeIsCountedNoOp :
    TickComes (ticked 0x81 0x28) 0 ((hosted (coded 0x81 0x28) []).setHostClock 0) ∧ (ticked 0x81 0x28).runState = .run ∧
    (((hosted (coded 0x81 0x28) []).setHostClock 0).governorConsult 0).1 = true ∧ (ticked 0x81 0x28).fetch = .opcode 0x8128 ∧
    decode (ticked 0x81 0x28).params.decode59Strict 0x8128 = .undefined .group8 :=
  ⟨comes_queued (coded 0x81 0x28) 0, by decide⟩

theorem test_witness_undefinedOpcodeIsCountedNoOp_emptyQueue :
    TickComes (coded 0x81 0x28) (coded 0x81 0x28).nextTick ((coded 0x81 0x28).setHostClock (coded 0x81 0x28).nextTick) ∧
    (coded 0x81 0x28).runState = .run ∧
    (((coded 0x81 0x28).setHostClock (coded 0x81 0x28).nextTick).governorConsult (coded 0x81 0x28).nextTick).1 = true ∧
    (coded 0x81 0x28).fetch = .opcode 0x8128 := ⟨comes_empty (by decide), by decide⟩

/-- Both clauses where they meet: a fetch at 0xFFE finds an opcode, at 0xFFF and at 0x1000 none. -/
theorem test_witness_fetch :
    { start with pc := 0xFFE }.pc.toNat < 0xFFF ∧ 0xFFF ≤ { start with pc := 0xFFF }.pc.toNat ∧
    { start with pc := 0xFFF }.fetch = .illegal 0x1000 ∧ { start with pc := 0x1000 }.fetch = .illegal 0x1000 := by decide

/-- `start` at the last address, where no opcode fits. -/
def atEnd : State := { start with pc := 0xFFF }

theorem test_witness_fetchFaultIsEntered :
    TickComes (hosted atEnd [.tick 0]) 0 ((hosted atEnd []).setHostClock 0) ∧ atEnd.runState = .run ∧
    (((hosted atEnd []).setHostClock 0).governorConsult 0).1 = true ∧ 0xFFF ≤ atEnd.pc.toNat :=
  ⟨comes_queued atEnd 0, by decide⟩

theorem test_witness_fetchFaultIsEntered_emptyQueue :
    TickComes atEnd atEnd.nextTick (atEnd.setHostClock atEnd.nextTick) ∧
    ((atEnd.setHostClock atEnd.nextTick).governorConsult atEnd.nextTick).1 = true := ⟨comes_empty rfl, by decide⟩

/-- An empty bucket, and ticks 7 ms apart when none is queued. -/
def emptyBucket : State := { start with allowance := 0, params := { start.params with tickInterval := 7 } }

/-- GV2 and GV3. -/
theorem test_witness_deniedTick :
    TickComes (hosted emptyBucket [.tick 0]) 0 ((hosted emptyBucket []).setHostClock 0) ∧ emptyBucket.runState = .run ∧
    (((hosted emptyBucket []).setHostClock 0).governorConsult 0).1 = false ∧
    TickComes emptyBucket emptyBucket.nextTick (emptyBucket.setHostClock emptyBucket.nextTick) ∧
    ((emptyBucket.setHostClock emptyBucket.nextTick).governorConsult emptyBucket.nextTick).1 = false :=
  ⟨comes_queued emptyBucket 0, by decide, by decide, comes_empty rfl, by decide⟩

theorem test_witness_idleAndFaultTicks :
    TickComes (hosted State.reset [.tick 3]) 3 ((hosted State.reset []).setHostClock 3) ∧
    TickComes State.reset State.reset.nextTick (State.reset.setHostClock State.reset.nextTick) ∧
    State.reset.runState = .idle ∧
    TickComes (hosted (start.raiseFault .addrRead 0x1000) [.tick 3]) 3
      ((hosted (start.raiseFault .addrRead 0x1000) []).setHostClock 3) ∧
    (start.raiseFault .addrRead 0x1000).runState = .fault :=
  ⟨comes_queued _ 3, comes_empty rfl, rfl, comes_queued _ 3, rfl⟩

/-- `start` waiting for a key for V3, this one in the slot. -/
def waiting (k : Option Nibble) : State := hosted { start with runState := .waitKey, waitX := 3, keySlot := k } [.tick 0]

theorem test_witness_waitKeyPoll :
    TickComes (waiting none) 0 ((hosted (waiting none) []).setHostClock 0) ∧ (waiting none).runState = .waitKey ∧
    (waiting none).keySlot = none ∧ TickComes (waiting (some 15)) 0 ((hosted (waiting (some 15)) []).setHostClock 0) ∧
    (waiting (some 15)).runState = .waitKey ∧ (waiting (some 15)).keySlot = some 15 ∧
    TickComes (hosted (waiting none) []) (waiting none).nextTick
      ((hosted (waiting none) []).setHostClock (waiting none).nextTick) :=
  ⟨comes_queued (waiting none) 0, rfl, rfl, comes_queued (waiting (some 15)) 0, rfl, rfl, comes_empty rfl⟩

/-- Both clauses: at the default divider the count comes to 0 from 4, and from 3 it does not. -/
theorem test_witness_completionCounts :
    ({ start with tc := 4 }.tc + 1) % start.params.timerDivider.val = 0 ∧
    ({ start with tc := 3 }.tc + 1) % start.params.timerDivider.val ≠ 0 := by decide

/-- A divider of 3 is a change of argument: the count wraps from 2 (93_implementation_defined.md row 17). -/
theorem test_other_divider :
    { start with tc := 2, dt := 9, params := { start.params with timerDivider := ⟨3, by decide⟩ } }.completeInstruction.dt = 8 := by
  decide

theorem test_witness_timerEvent :
    0 < { start with dt := 1 }.dt.toNat ∧ start.dt = 0 ∧ 0 < { start with st := 1 }.st.toNat ∧ start.st = 0 := by decide

/-- DT = 2 from tc = 0: at least 6 and at most 10 completions. -/
theorem test_witness_delayTimer :
    { start with dt := 2 }.cadenceInRange ∧ start.params.timerDivider.val = 5 ∧
    0 < { start with dt := 2 }.dt.toNat ∧ 5 ≤ 5 * ({ start with dt := 2 }.dt.toNat - 1) ∧ 5 * { start with dt := 2 }.dt.toNat ≤ 10 := by
  unfold State.cadenceInRange; decide

/-- From an empty bucket: just before a token, at a token, and at two. -/
theorem test_witness_oneToken :
    start.params.govRate = 14 ∧ start.params.govPeriod.val = 100 ∧ { start with allowance := 0 }.allowance = 0 ∧
    ({ start with allowance := 0 }.governorConsult (mkRat 50 7)).1 = true ∧
    ({ start with allowance := 0 }.governorConsult (mkRat 49 7)).1 = false ∧
    (({ start with allowance := 0 }.governorConsult (mkRat 100 7)).2.governorConsult (mkRat 100 7)).1 = true := by decide

theorem test_witness_grantsAreBounded :
    start.governorBounded ∧ (0 : Rat) ≤ 100 ∧ (∀ now ∈ [(0 : Millis), 100, 50], now ≤ start.lastCheck + 100) ∧
    grantsOver start [0, 100, 50] = 3 := by
  refine ⟨⟨by decide, by decide⟩, by norm_num, ?_, by decide⟩
  simp [start, State.reset]; norm_num

theorem test_witness_hostReset : (hosted (slot (some 3)) [.reset 5]).hostQueue = [.reset 5] := by decide

/-- All three clauses, with the longest ROM and one byte more. -/
theorem test_witness_romLoad :
    (hosted State.reset [.loadRom []]).memWf ∧ State.reset.runState = .idle ∧ (List.replicate 3584 (0 : Byte)).length ≤ 3584 ∧
    3584 < (List.replicate 3585 (0 : Byte)).length ∧ start.runState ≠ .idle := by
  rw [List.length_replicate, List.length_replicate]; decide

theorem test_witness_keyPress : (hosted start [.keyPress 15]).hostQueue = [.keyPress 15] := by decide

theorem test_witness_execFaults :
    exec .ret start = .next (start.raiseFault .stackUnderflow 0) ∧ start.runState ≠ .fault ∧
    (start.raiseFault .stackUnderflow 0).runState = .fault ∧
    exec (.drw 0 1 15) (start.setI 0xFF2) = .next ((start.setI 0xFF2).raiseFault .addrRead 0x1000) :=
  ⟨rfl, by decide, rfl, rfl⟩

theorem test_witness_faultingStep :
    step (ticked 0x00 0xEE) = .next (after (step (ticked 0x00 0xEE))) ∧ (ticked 0x00 0xEE).runState ≠ .fault ∧
    (after (step (ticked 0x00 0xEE))).runState = .fault := ⟨rfl, by decide, by decide⟩

theorem test_witness_onlyResetLeavesFault :
    (hosted (start.raiseFault .addrRead 0x1000) [.keyPress 7]).runState = .fault ∧
    (after (step (hosted (start.raiseFault .addrRead 0x1000) [.keyPress 7]))).keySlot = some 7 ∧
    (after (step (hosted (start.raiseFault .addrRead 0x1000) [.reset 0]))).runState = .idle := by decide

theorem test_witness_onlyListedInstructionsWriteV :
    (after (exec (.ldImm 3 0x42) start)).reg 3 ≠ start.reg 3 ∧ (after (exec (.ldVxMem 15) start)).reg 15 ≠ start.reg 15 ∧
    (after (exec (.drw 0 0 1) { start with v := start.v.set 15 9 })).reg 15 ≠ 9 := by decide

/-- One changed field for each clause. -/
theorem test_witness_stateHasItsListedWriters :
    (after (exec (.ldI 1) start)).i ≠ start.i ∧ (after (exec (.call 0) start)).stack ≠ start.stack ∧
    (after (exec (.call 0) start)).sp ≠ start.sp ∧ (after (exec (.ldDtVx 0) (regs 0 1 1 0))).dt ≠ 0 ∧
    (after (exec (.ldStVx 0) (regs 0 1 1 0))).st ≠ 0 ∧ (after (exec (.drw 0 0 1) start)).disp ≠ start.disp ∧
    (after (exec (.ldB 0) (at_ 0x300 1))).mem ≠ [] ∧ (after (exec (.skp 0) (slot (some 5)))).keySlot ≠ some 5 ∧
    (after (exec (.ldVxK 3) start)).waitX ≠ start.waitX := by decide

/-- The clauses of PC (each class of R96), run_state, playing and the fault record. -/
theorem test_witness_stateHasItsListedWriters_pcAndFault :
    (after (exec (.sys 0) start)).pc ≠ start.pc ∧ (after (exec (.seImm 0 0) start)).pc ≠ start.pc ∧
    (after (exec (.jp 0x300) start)).pc ≠ start.pc ∧ (after (exec (.ldVxK 3) start)).runState ≠ start.runState ∧
    (after (exec .ret start)).runState ≠ start.runState ∧ (after (exec .ret { start with playing := true })).playing ≠ true ∧
    (after (exec .ret start)).faultCode ≠ start.faultCode ∧ (after (exec .ret start)).faultPc ≠ start.faultPc ∧
    (after (exec (.ldB 0) (at_ 0x1005 1))).faultAddr ≠ start.faultAddr := by decide

/-- The generator's clause: a generator that moves gives it, and the model fixes none (log entry 6). -/
theorem test_witness_rng (h : (Config.rngNext 0).2 ≠ 0) : (after (exec (.rnd 0 0) start)).rng ≠ start.rng := h

/-- A word for each encoding clause of the instruction statements, with every free bit set. -/
theorem test_witness_rowMasks :
    0x0FFF#16 &&& 0xF000#16 = 0x0000#16 ∧ 0x0FFF#16 ≠ 0x00E0#16 ∧ 0x0FFF#16 ≠ 0x00EE#16 ∧
    0x1FFF#16 &&& 0xF000#16 = 0x1000#16 ∧ 0x2FFF#16 &&& 0xF000#16 = 0x2000#16 ∧ 0x3FFF#16 &&& 0xF000#16 = 0x3000#16 ∧
    0x4FFF#16 &&& 0xF000#16 = 0x4000#16 ∧ 0x5FF0#16 &&& 0xF00F#16 = 0x5000#16 ∧ 0x5FFF#16 &&& 0xF000#16 = 0x5000#16 ∧
    0x6FFF#16 &&& 0xF000#16 = 0x6000#16 ∧ 0x7FFF#16 &&& 0xF000#16 = 0x7000#16 ∧ 0x9FF0#16 &&& 0xF00F#16 = 0x9000#16 ∧
    0x9FFF#16 &&& 0xF000#16 = 0x9000#16 ∧ 0xAFFF#16 &&& 0xF000#16 = 0xA000#16 ∧ 0xBFFF#16 &&& 0xF000#16 = 0xB000#16 ∧
    0xCFFF#16 &&& 0xF000#16 = 0xC000#16 ∧ 0xDFFF#16 &&& 0xF000#16 = 0xD000#16 := by decide

theorem test_witness_rowMasks8 :
    0x8FF0#16 &&& 0xF00F#16 = 0x8000#16 ∧ 0x8FF1#16 &&& 0xF00F#16 = 0x8001#16 ∧ 0x8FF2#16 &&& 0xF00F#16 = 0x8002#16 ∧
    0x8FF3#16 &&& 0xF00F#16 = 0x8003#16 ∧ 0x8FF4#16 &&& 0xF00F#16 = 0x8004#16 ∧ 0x8FF5#16 &&& 0xF00F#16 = 0x8005#16 ∧
    0x8FF6#16 &&& 0xF00F#16 = 0x8006#16 ∧ 0x8FF7#16 &&& 0xF00F#16 = 0x8007#16 ∧ 0x8FFE#16 &&& 0xF00F#16 = 0x800E#16 := by
  decide

theorem test_witness_rowMasksEF :
    0xEF9E#16 &&& 0xF0FF#16 = 0xE09E#16 ∧ 0xEFA1#16 &&& 0xF0FF#16 = 0xE0A1#16 ∧ 0xFF07#16 &&& 0xF0FF#16 = 0xF007#16 ∧
    0xFF0A#16 &&& 0xF0FF#16 = 0xF00A#16 ∧ 0xFF15#16 &&& 0xF0FF#16 = 0xF015#16 ∧ 0xFF18#16 &&& 0xF0FF#16 = 0xF018#16 ∧
    0xFF1E#16 &&& 0xF0FF#16 = 0xF01E#16 ∧ 0xFF29#16 &&& 0xF0FF#16 = 0xF029#16 ∧ 0xFF33#16 &&& 0xF0FF#16 = 0xF033#16 ∧
    0xFF55#16 &&& 0xF0FF#16 = 0xF055#16 ∧ 0xFF65#16 &&& 0xF0FF#16 = 0xF065#16 := by decide

/-- RET and CALL on both sides of their bounds. -/
theorem test_witness_stackBounds :
    0 < { start with sp := 16 }.sp.val ∧ ¬ 0 < start.sp.val ∧ { start with sp := 15 }.sp.val < 16 ∧
    ¬ { start with sp := 16 }.sp.val < 16 := by decide

/-- The clause of HighPcFetchFaults: V0 = 0xFF and JP V0,0xFFF. -/
theorem test_witness_highPc : 0xFFF ≤ (after (exec (.jpV0 0xFFF) (regs 0 0xFF 1 0))).pc.toNat ∧
    (after (exec (.jpV0 0xFFF) (regs 0 0xFF 1 0))).fetch = .illegal 0x10FE := by decide

/-- Both clauses of a flag-writing operation: x = F and x not F, carry at 256 and none at 255. -/
theorem test_witness_flags : (0 : Reg) ≠ 15 ∧ 256 ≤ ((regs 0 0x80 1 0x80).reg 0).toNat + ((regs 0 0x80 1 0x80).reg 1).toNat ∧
    ¬ 256 ≤ ((regs 0 0x80 1 0x7F).reg 0).toNat + ((regs 0 0x80 1 0x7F).reg 1).toNat := by decide

/-- Fx33 and Fx55 on both sides of the end of memory, in a canonical memory. -/
theorem test_witness_storeBounds :
    (at_ 0xFFD 1).memWf ∧ (at_ 0xFFD 1).i.toNat + 2 < 4096 ∧ ¬ (at_ 0xFFE 1).i.toNat + 2 < 4096 ∧
    (at_ 0xFFF 1).i.toNat + (0 : Reg).val < 4096 ∧ ¬ (at_ 0xFFF 1).i.toNat + (1 : Reg).val < 4096 := by decide

/-- Fx33 and Fx55 over the very next opcode. -/
theorem test_witness_nextFetchSeesStore :
    (at_ 0x202 205).memWf ∧ (at_ 0x202 205).i.toNat + (bcdDigits ((at_ 0x202 205).reg 0)).length ≤ 4096 ∧
    (at_ 0x202 205).i.toNat + ((at_ 0x202 205).regsUpTo 1).length ≤ 4096 ∧ (at_ 0x202 205).pc.toNat + 3 < 4096 ∧
    (after (exec (.ldMemVx 1) (at_ 0x202 205))).fetch = .opcode 0xCD00 := by decide

/-- DRW: the last legal sprite and the first illegal one, n = 0 past memory, a covered pixel that is on and one that is off. -/
theorem test_witness_drw :
    (start.setI 0xFF1).i.toNat + (15 : Nibble).toNat ≤ 4096 ∧ ¬ (start.setI 0xFF2).i.toNat + (15 : Nibble).toNat ≤ 4096 ∧
    (0 : Nibble).toNat = 0 ∧ ¬ (start.setI 0x2000).i.toNat ≤ 4096 ∧
    spriteCovers (sprite 0x80 63 31) 63 31 1 63 31 = true ∧ (sprite 0x80 63 31).pixel 63 31 = false ∧
    ((sprite 0x80 63 31).setDisp (setPixel start.disp 63 31 true)).pixel 63 31 = true := by decide

/-- Every clause of the key statements: the key named, another, none. -/
theorem test_witness_keys :
    (slot (some 5)).keySlot = some 5 ∧ (5 : Nibble).toNat = ((slot (some 5)).reg 0).toNat ∧ (slot (some 6)).keySlot = some 6 ∧
    (6 : Nibble).toNat ≠ ((slot (some 6)).reg 0).toNat ∧ (slot none).keySlot = none := by decide

theorem test_witness_timers :
    ({ regs 0 1 1 0 with tc := 4 }.tc + 1) % { regs 0 1 1 0 with tc := 4 }.params.timerDivider.val = 0 ∧
    { regs 0 1 1 0 with tc := 4 }.reg 0 = 1 := by decide

/-! ### The invariant, in RUN, WAIT_KEY and FAULT -/

/-- The invariant of a state with the reset's governor, cadence, memory and load report that is not in IDLE. -/
theorem inv_of_running {s : State} (hm : s.mem = []) (ha : s.allowance = 14) (hp : s.params = Params.default)
    (hc : s.tc = 0)     (hl : s.loadFailed = false) (hr : s.runState ≠ .idle) (hf : s.faultRecorded) (hw : s.waitsAtInstruction) : s.Inv where
  memory := by rw [State.memWf, hm]; rfl
  governor := by rw [State.governorBounded, ha, hp]; exact ⟨by decide, by decide⟩
  cadence := by rw [State.cadenceInRange, hc]; exact s.params.timerDivider.property
  faults := hf
  waits := hw
  idle := fun h => absurd h hr
  load := fun h => by rw [hl] at h; cases h

theorem test_witness_inv_run : start.Inv ∧ step start = .next (after (step start)) :=
  ⟨inv_of_running rfl rfl rfl rfl rfl (by decide) ⟨by decide, by decide, ⟨rfl, rfl⟩⟩ (fun h => by cases h), rfl⟩

theorem test_witness_inv_waitKey : (waiting (some 7)).Inv ∧ step (waiting (some 7)) = .next (after (step (waiting (some 7)))) :=
  ⟨inv_of_running rfl rfl rfl rfl rfl (by decide) ⟨by decide, by decide, ⟨rfl, rfl⟩⟩ (fun _ => by decide), rfl⟩

theorem test_witness_inv_fault :
    (start.raiseFault .addrFetch 0x1000).Inv ∧
    step (start.raiseFault .addrFetch 0x1000) = .next (after (step (start.raiseFault .addrFetch 0x1000))) :=
  ⟨inv_of_running rfl rfl rfl rfl rfl (by decide) ⟨by decide, by decide, Nat.le_refl 4096⟩ (fun h => by cases h), rfl⟩

end Sys2Proof.Tests
end

section
/-! PROOFS. The V registers each operation of the state may write, and with them R22's list of the instructions that write a
V register (10_state.md). -/

namespace Sys2Proof.Machine

/-- Between `s` and `t` no V register changes but those that `P` names. -/
def WritesOnly (P : Reg → Prop) (s t : State) : Prop := ∀ r, t.reg r ≠ s.reg r → P r

/-! ### The operations that write no V register -/

theorem WritesOnly.of_v_eq {P : Reg → Prop} {s t : State} (h : t.v = s.v) : WritesOnly P s t :=
  fun r hne => absurd (State.reg_congr h r) hne

@[simp] theorem State.skipIf_v (s : State) (c : Bool) : (s.skipIf c).v = s.v := by
  rw [State.skipIf_eq, State.setPc_v]

@[simp] theorem State.writeBytes_v (s : State) (base : Nat) (ws : List Byte) : (s.writeBytes base ws).v = s.v := by
  rw [State.writeBytes_eq_setMem, State.setMem_v]

/-! ### The operations that write V registers -/

theorem State.resultOnly_writesOnly (s : State) (x : Reg) (w : Byte) : WritesOnly (· = x) s (s.resultOnly x w) :=
  fun r hne => by_contra fun hx => hne (by rw [State.resultOnly_reg, if_neg hx])

theorem State.resultWithFlag_writesOnly (s : State) (x : Reg) (flag w : Byte) :
    WritesOnly (fun r => r = x ∨ r = regVF) s (s.resultWithFlag x flag w) := by
  intro r hne
  by_contra hr
  obtain ⟨hx, hF⟩ := not_or.1 hr
  exact hne (by rw [State.resultWithFlag_reg, if_neg hx, if_neg hF])

theorem State.deliverKey_writesOnly (s : State) (x : Reg) (k : Nibble) : WritesOnly (· = x) s (s.deliverKey x k) :=
  s.resultOnly_writesOnly x (zextKey k)

theorem State.finishDraw_writesOnly (s : State) (drawn : Display × Bool) :
    WritesOnly (· = regVF) s (s.finishDraw drawn) :=
  (s.setDisp drawn.1).resultOnly_writesOnly regVF (flagByte drawn.2)

/-- A load of V[0], V[1], ... from a list reaches no register past the list's end. -/
theorem State.loadRegs_writesOnly (s : State) (ws : List Byte) (hin : ws.length ≤ 16) :
    WritesOnly (fun r => r.val < ws.length) s (s.loadRegs 0 ws) := by
  intro r hne
  by_contra hr
  have hnone : ws[r.val - 0]? = none := List.getElem?_eq_none (Nat.le_of_not_lt hr)
  exact hne (by rw [State.reg_loadRegs s 0 ws (by omega), hnone, Option.getD_none, ite_self])

/-- A checked access writes at most what its effect writes: the fault writes no V register. -/
theorem WritesOnly.checkedAccess {P : Reg → Prop} {s t : State} (h : WritesOnly P s t) (c : FaultCode) (base len : Nat) :
    WritesOnly P s (s.checkedAccess c base len t) := by
  obtain ⟨-, heq⟩ | ⟨-, heq⟩ := s.checkedAccess_cases t c base len <;> rw [heq]
  · exact h
  · exact .of_v_eq (State.raiseFault_v s c _)

/-! ### The instructions that decide between two effects -/

theorem exec_ret_cases (s : State) :
    (∃ h : 0 < s.sp.val, exec .ret s = .next (s.popPc h)) ∨
      (s.sp.val = 0 ∧ exec .ret s = .next (s.raiseFault .stackUnderflow 0)) := by
  by_cases h : 0 < s.sp.val
  · exact .inl ⟨h, dif_pos h⟩
  · exact .inr ⟨by omega, dif_neg h⟩

theorem exec_call_cases (nnn : Addr) (s : State) :
    (∃ h : s.sp.val < 16, exec (.call nnn) s = .next ((s.pushPc h).setPc (zextAddr nnn))) ∨
      (s.sp.val = 16 ∧ exec (.call nnn) s = .next (s.raiseFault .stackOverflow 0)) := by
  by_cases h : s.sp.val < 16
  · exact .inl ⟨h, dif_pos h⟩
  · exact .inr ⟨by omega, dif_neg h⟩

theorem exec_ldVxK_cases (x : Reg) (s : State) :
    (∃ k, s.keySlot = some k ∧ exec (.ldVxK x) s = .next (s.keyTake.2.deliverKey x k)) ∨
      (s.keySlot = none ∧ exec (.ldVxK x) s = .next (s.keyTake.2.beginWait x)) := by
  cases h : s.keySlot with
  | none => exact .inr ⟨rfl, by simp [exec, execLdVxK, h]⟩
  | some k => exact .inl ⟨k, rfl, by simp [exec, execLdVxK, h]⟩

/-! ### The instructions -/

/-- R22 for every instruction: the V registers it changes are among those listed for it. -/
theorem exec_writesOnly {i : Instr} {s t : State} (h : exec i s = .next t) : WritesOnly (mayWriteReg i) s t := by
  cases i with
  | ldImm x _ | addImm x _ | ldReg x _ | orReg x _ | andReg x _ | xorReg x _ | rnd x _ | ldVxDt x =>
    cases h
    exact State.resultOnly_writesOnly _ x _
  | addReg x _ | sub x _ | shr x _ | subn x _ | shl x _ =>
    cases h
    exact State.resultWithFlag_writesOnly s x _ _
  | ldVxK x =>
    obtain ⟨k, -, heq⟩ | ⟨-, heq⟩ := exec_ldVxK_cases x s <;> cases heq.symm.trans h
    · exact s.keyTake.2.deliverKey_writesOnly x k
    · exact .of_v_eq rfl
  | drw =>
    cases h
    exact (s.finishDraw_writesOnly _).checkedAccess _ _ _
  | ldVxMem x =>
    cases h
    refine WritesOnly.checkedAccess (fun r hne => ?_) _ _ _
    have hlen := s.readBytes_length s.base (x.val + 1)
    have hr : r.val < _ := s.loadRegs_writesOnly _ (by omega) r hne
    exact Nat.le_of_lt_succ (hr.trans_eq hlen)
  | ldB | ldMemVx =>
    cases h
    refine WritesOnly.checkedAccess (.of_v_eq ?_) _ _ _
    rw [State.advance_v, State.writeBytes_v]
  | seImm | sneImm | seReg | sneReg | skp | sknp =>
    cases h
    exact .of_v_eq (State.skipIf_v _ _)
  | ret =>
    obtain ⟨_, heq⟩ | ⟨-, heq⟩ := exec_ret_cases s <;> cases heq.symm.trans h <;> exact .of_v_eq rfl
  | call nnn =>
    obtain ⟨_, heq⟩ | ⟨-, heq⟩ := exec_call_cases nnn s <;> cases heq.symm.trans h <;> exact .of_v_eq rfl
  | cls | sys | jp | jpV0 | ldI | addI | ldF | ldDtVx | ldStVx =>
    cases h
    exact .of_v_eq rfl

/-- Settles O30: an instruction's changed V registers are those R22 lists for it. -/
theorem onlyListedInstructionsWriteV : Obligations.OnlyListedInstructionsWriteV :=
  fun _ _ _ h => exec_writesOnly h

end Sys2Proof.Machine
end

section
/-! PROOFS. A granted tick: the state in which its instruction runs, the step as fetch, decode, exec and completion
(40_fetch_cycle.md R90), and with it the UNDEFINED opcode (30_encoding.md R77). -/

namespace Sys2Proof.Machine

/-! ### The state in which a granted tick runs its instruction -/

/-- A fetch reads PC, memory and the parameters, nothing else of the state. -/
theorem State.fetch_congr {s t : State} (hpc : t.pc = s.pc) (hm : t.mem = s.mem) (hp : t.params = s.params) :
    t.fetch = s.fetch := by
  simp only [State.fetch, hpc, State.readByte_congr hm hp]

/-- A consult, granted or denied, writes the governor's two fields only. -/
theorem State.governorConsult_eq_setGovernor (s : State) (now : Millis) :
    (s.governorConsult now).2 =
      s.setGovernor (s.governorConsult now).2.allowance (s.governorConsult now).2.lastCheck := by
  obtain ⟨-, heq⟩ | ⟨-, heq⟩ := s.governorConsult_cases now <;> rw [heq] <;> rfl

/-- After the consult of a tick that comes, only the governor's fields and the model's host fields differ. -/
theorem TickComes.governorConsult_eq {s u : State} {now : Millis} (h : TickComes s now u) :
    (u.governorConsult now).2 =
      { s with
        hostQueue := u.hostQueue, hostClock := now
        allowance := (u.governorConsult now).2.allowance, lastCheck := (u.governorConsult now).2.lastCheck } := by
  obtain ⟨q, -, rfl⟩ | ⟨-, -, rfl⟩ := h <;> exact State.governorConsult_eq_setGovernor _ now

theorem TickComes.runState {s u : State} {now : Millis} (h : TickComes s now u) : u.runState = s.runState := by
  rw [h.eq]

/-! ### The granted step -/

theorem State.tick_of_granted {s : State} {now : Millis} (hrun : s.runState = .run)
    (hg : (s.governorConsult now).1 = true) : s.tick now = (s.governorConsult now).2.runInstruction := by
  simp [State.tick, hrun, hg]

theorem State.runInstruction_of_fetch {s : State} {op : Word} (h : s.fetch = .opcode op) :
    s.runInstruction = mapNext State.afterExecute (execDecoded (decode s.params.decode59Strict op) s) := by
  simp only [State.runInstruction, h]

/-- A granted tick whose fetch finds an opcode executes what it decodes to, and completes it (R90). -/
theorem TickComes.step_of_granted {s u : State} {now : Millis} {op : Word} (h : TickComes s now u)
    (hrun : s.runState = .run) (hg : (u.governorConsult now).1 = true) (hf : s.fetch = .opcode op) :
    step s =
      mapNext State.afterExecute (execDecoded (decode s.params.decode59Strict op) (u.governorConsult now).2) := by
  have heq := h.governorConsult_eq
  have hpar : (u.governorConsult now).2.params = s.params := by rw [heq]
  have hfetch : (u.governorConsult now).2.fetch = .opcode op :=
    (State.fetch_congr (by rw [heq]) (by rw [heq]) hpar).trans hf
  rw [step_of_tickComes h, State.tick_of_granted (h.runState.trans hrun) hg, State.runInstruction_of_fetch hfetch, hpar]

/-! ### The UNDEFINED opcode -/

theorem State.afterExecute_of_run {s : State} (h : s.runState = .run) : s.afterExecute = s.completeInstruction :=
  if_pos h

/-- `advance` moves PC by 2, mod 65536 (R96). -/
theorem State.advance_pcBy (s : State) : PcBy s s.advance 2 := BitVec.toNat_add s.pc 2

/-- Settles O8: the step advances the consulted state, which is still in RUN, and completes it. -/
theorem undefinedOpcodeIsCountedNoOp : Obligations.UndefinedOpcodeIsCountedNoOp := by
  intro s u now op g h hrun hg hf hd
  have heq := h.governorConsult_eq
  have hpc : (u.governorConsult now).2.pc = s.pc := by rw [heq]
  have hrun' : (u.governorConsult now).2.advance.runState = .run := by rw [heq]; exact hrun
  refine ⟨_, (u.governorConsult now).2.advance, ?_, rfl, ?_, ?_⟩
  · rw [h.step_of_granted hrun hg hf, hd, ← State.afterExecute_of_run hrun']
    rfl
  · unfold PcBy
    rw [← hpc]
    exact State.advance_pcBy _
  · rw [State.advance_pc, hpc]
    exact congrArg State.advance heq

end Sys2Proof.Machine
end

section
/-! PROOFS. A denied tick: the step is the consulted state, and only the governor has moved (40_fetch_cycle.md R98). -/

namespace Sys2Proof.Machine

theorem State.tick_of_denied {s : State} {now : Millis} (hrun : s.runState = .run)
    (hg : (s.governorConsult now).1 = false) : s.tick now = .next (s.governorConsult now).2 := by
  simp [State.tick, hrun, hg]

/-- A denied tick ends with the governor's consult: nothing is fetched (R98). -/
theorem TickComes.step_of_denied {s u : State} {now : Millis} (h : TickComes s now u) (hrun : s.runState = .run)
    (hg : (u.governorConsult now).1 = false) : step s = .next (u.governorConsult now).2 :=
  (step_of_tickComes h).trans (State.tick_of_denied (h.runState.trans hrun) hg)

/-- Settles O11: the step ends in the consulted state, where only the governor's and the host's fields differ. -/
theorem deniedTickMovesOnlyGovernor : Obligations.DeniedTickMovesOnlyGovernor :=
  fun _ u now h hrun hg => ⟨(u.governorConsult now).2, h.step_of_denied hrun hg, h.governorConsult_eq⟩

end Sys2Proof.Machine
end

section
/-! PROOFS. Control transfer (41_control_flow.md): the rows of the decoder that a mask names, the frame of a write of PC, the
skip, the call stack, and with them CALL, RET, the jumps and the skips that compare values. -/

namespace Sys2Proof

/-! ### The rows of control transfer (R75, R79) -/

section
variable {strict : Bool} {op : Word}

theorem decode_jp (h : op &&& 0xF000#16 = 0x1000#16) : decode strict op = .instr (.jp (fieldNNN op)) := by
  rw [decode, fieldG_of_mask h rfl]; rfl

theorem decode_call (h : op &&& 0xF000#16 = 0x2000#16) : decode strict op = .instr (.call (fieldNNN op)) := by
  rw [decode, fieldG_of_mask h rfl]; rfl

theorem decode_seImm (h : op &&& 0xF000#16 = 0x3000#16) :
    decode strict op = .instr (.seImm (fieldX op) (fieldKK op)) := by
  rw [decode, fieldG_of_mask h rfl]; rfl

theorem decode_sneImm (h : op &&& 0xF000#16 = 0x4000#16) :
    decode strict op = .instr (.sneImm (fieldX op) (fieldKK op)) := by
  rw [decode, fieldG_of_mask h rfl]; rfl

theorem decode_jpV0 (h : op &&& 0xF000#16 = 0xB000#16) : decode strict op = .instr (.jpV0 (fieldNNN op)) := by
  rw [decode, fieldG_of_mask h rfl]; rfl

theorem decode_group5 (h : fieldG op = 0x5#4) :
    decode strict op = decodeGroup59 strict .group5 (.seReg (fieldX op) (fieldY op)) op := by
  rw [decode, h]; rfl

theorem decode_group9 (h : fieldG op = 0x9#4) :
    decode strict op = decodeGroup59 strict .group9 (.sneReg (fieldX op) (fieldY op)) op := by
  rw [decode, h]; rfl

/-- In groups 5 and 9 a bottom nibble 0 names the instruction under either setting of DECODE_5_9_STRICT. -/
theorem decodeGroup59_of_fieldN_zero {g : UndefinedGroup} {i : Instr} (h : fieldN op = 0#4) :
    decodeGroup59 strict g i op = .instr i := by
  simp [decodeGroup59, h]

/-- Without DECODE_5_9_STRICT the bottom nibble is ignored. -/
theorem decodeGroup59_false {g : UndefinedGroup} {i : Instr} : decodeGroup59 false g i op = .instr i := rfl

end

end Sys2Proof

namespace Sys2Proof.Machine

/-! ### Frames -/

theorem SameBytes.of_mem_eq {s t : State} (hm : t.mem = s.mem) (hp : t.params = s.params) : SameBytes s t :=
  State.readByte_congr hm hp

/-- The fetch checks both of its addresses, so every state faults at a high PC (R93). -/
theorem State.highPcFetchFaults (t : State) : HighPcFetchFaults t :=
  fun hpc => State.fetch_of_not_lt (Nat.not_lt.2 (Nat.succ_le_succ hpc))

/-- A write of PC leaves the rest of the state, and a high target faults at the next fetch only. -/
theorem State.setPc_frame (s : State) (w : Word) :
    OnlyPc s (s.setPc w) ∧ SameBytes s (s.setPc w) ∧ HighPcFetchFaults (s.setPc w) :=
  ⟨rfl, .of_mem_eq rfl rfl, State.highPcFetchFaults _⟩

/-- Fault entry at an address that fits in fault_addr (R216). -/
theorem State.raiseFault_entersFault (s : State) (code : FaultCode) {addr : Nat} (h : addr < 65536) :
    EntersFault s (s.raiseFault code addr) code addr :=
  ⟨rfl, rfl, (BitVec.toNat_ofNat addr 16).trans (Nat.mod_eq_of_lt h), rfl, rfl, rfl⟩

/-! ### The skip class (R96) -/

theorem State.skipIf_pcBy (s : State) (c : Bool) : PcBy s (s.skipIf c) (if c then 4 else 2) := by
  cases c with
  | false => exact s.advance_pcBy
  | true => exact BitVec.toNat_add s.pc 4

theorem State.skipIf_frame (s : State) (c : Bool) :
    OnlyPc s (s.skipIf c) ∧ SameBytes s (s.skipIf c) ∧ HighPcFetchFaults (s.skipIf c) := by
  rw [State.skipIf_eq]
  exact s.setPc_frame _

/-- A skip on equal bytes compares their values. -/
theorem State.skipIf_beq_pcBy (s : State) (a b : Byte) :
    PcBy s (s.skipIf (a == b)) (if a.toNat = b.toNat then 4 else 2) := by
  simpa [BitVec.toNat_inj] using s.skipIf_pcBy (a == b)

/-- A skip on different bytes compares their values. -/
theorem State.skipIf_bne_pcBy (s : State) (a b : Byte) :
    PcBy s (s.skipIf (a != b)) (if a.toNat = b.toNat then 2 else 4) := by
  simpa [BitVec.toNat_inj] using s.skipIf_pcBy (a != b)

/-- Settles O36: both skip on a comparison of V[x] with kk, and a skip writes PC only. -/
theorem skipsOnImmediate : Obligations.SkipsOnImmediate :=
  ⟨fun _ _ => decode_seImm, fun _ _ => decode_sneImm, fun x kk s =>
    ⟨⟨_, rfl, s.skipIf_beq_pcBy (s.reg x) kk, s.skipIf_frame _⟩,
      ⟨_, rfl, s.skipIf_bne_pcBy (s.reg x) kk, s.skipIf_frame _⟩⟩⟩

/-- Settles O37: mask 0xF00F fixes the group and a bottom nibble 0; mask 0xF000 fixes the group, which is enough when
DECODE_5_9_STRICT is false. -/
theorem skipsOnRegisters : Obligations.SkipsOnRegisters := by
  refine ⟨fun strict op h => ?_, fun op h => ?_, fun strict op h => ?_, fun op h => ?_, fun x y s => ⟨?_, ?_⟩⟩
  · exact (decode_group5 (fieldG_of_mask h rfl)).trans (decodeGroup59_of_fieldN_zero (fieldN_of_mask h rfl))
  · exact (decode_group5 (fieldG_of_mask h rfl)).trans decodeGroup59_false
  · exact (decode_group9 (fieldG_of_mask h rfl)).trans (decodeGroup59_of_fieldN_zero (fieldN_of_mask h rfl))
  · exact (decode_group9 (fieldG_of_mask h rfl)).trans decodeGroup59_false
  · exact ⟨_, rfl, s.skipIf_beq_pcBy (s.reg x) (s.reg y), s.skipIf_frame _⟩
  · exact ⟨_, rfl, s.skipIf_bne_pcBy (s.reg x) (s.reg y), s.skipIf_frame _⟩

/-! ### Jump targets -/

@[simp] theorem zextAddr_toNat (nnn : Addr) : (zextAddr nnn).toNat = nnn.toNat :=
  BitVec.toNat_setWidth_of_le (by decide)

@[simp] theorem zextByte_toNat (w : Byte) : (zextByte w).toNat = w.toNat :=
  BitVec.toNat_setWidth_of_le (by decide)

/-- The target of JP V0,addr is the exact sum: 0xFFF + 0xFF is below 65536 (R118). -/
theorem zextAddr_add_zextByte_toNat (nnn : Addr) (w : Byte) :
    (zextAddr nnn + zextByte w).toNat = nnn.toNat + w.toNat := by
  have hn := nnn.isLt
  have hw := w.isLt
  rw [BitVec.toNat_add, zextAddr_toNat, zextByte_toNat, Nat.mod_eq_of_lt (by omega)]

/-- Settles O38: both jumps write PC only, the second one the sum, which does not wrap. -/
theorem jumpsSetPc : Obligations.JumpsSetPc :=
  ⟨fun _ _ => decode_jp, fun _ _ => decode_jpV0, fun nnn s =>
    ⟨⟨_, rfl, zextAddr_toNat nnn, s.setPc_frame _⟩,
      ⟨_, rfl, zextAddr_add_zextByte_toNat nnn (s.reg regV0), s.setPc_frame _⟩⟩⟩

/-! ### The call stack (R28, R29) -/

/-- A push writes the entry at SP. -/
theorem State.pushPc_stack_sp (s : State) (h : s.sp.val < 16) : (s.pushPc h).stack[s.sp.val] = s.pc :=
  Vector.getElem_set_self h

/-- A push keeps every other entry. -/
theorem State.pushPc_stack_of_ne (s : State) (h : s.sp.val < 16) {k : Fin 16} (hk : k.val ≠ s.sp.val) :
    (s.pushPc h).stack[k] = s.stack[k] :=
  Vector.getElem_set_ne h k.isLt hk.symm

/-- A pop undoes a push, wherever PC has gone in between, but for PC, which follows the pushed address, and the entry, which
stays (R111). -/
theorem State.popPc_setPc_pushPc (s : State) (h : s.sp.val < 16) (w : Word) :
    ((s.pushPc h).setPc w).popPc (Nat.succ_pos _) = { s with stack := (s.pushPc h).stack, pc := s.pc + 2 } := by
  simp [State.popPc]

theorem exec_call_of_lt (nnn : Addr) {s : State} (h : s.sp.val < 16) :
    exec (.call nnn) s = .next ((s.pushPc h).setPc (zextAddr nnn)) := dif_pos h

theorem exec_ret_of_pos {s : State} (h : 0 < s.sp.val) : exec .ret s = .next (s.popPc h) := dif_pos h

/-- Settles O34: a free entry takes the CALL's own address, a full stack is the overflow. -/
theorem callPushesOrOverflows : Obligations.CallPushesOrOverflows := by
  refine ⟨fun _ _ => decode_call, fun nnn s => ?_⟩
  obtain ⟨hlt, heq⟩ | ⟨hfull, heq⟩ := exec_call_cases nnn s
  · refine ⟨_, heq, ?_⟩
    rw [dif_pos hlt]
    exact ⟨s.pushPc_stack_sp hlt, fun _ hk => s.pushPc_stack_of_ne hlt hk, rfl, zextAddr_toNat nnn, rfl,
      .of_mem_eq rfl rfl, State.highPcFetchFaults _⟩
  · refine ⟨_, heq, ?_⟩
    rw [dif_neg (by omega)]
    exact s.raiseFault_entersFault .stackOverflow (by decide)

/-- Settles O33: an occupied entry goes to PC plus 2, an empty stack is the underflow, and a RET after a CALL
pops the CALL's own address. -/
theorem retPopsOrUnderflows : Obligations.RetPopsOrUnderflows := by
  refine ⟨fun _ => rfl, fun nnn s h => ?_, fun s => ?_⟩
  · refine ⟨_, _, exec_call_of_lt nnn h, exec_ret_of_pos (Nat.succ_pos _), ?_⟩
    rw [State.popPc_setPc_pushPc]
    exact BitVec.toNat_add s.pc 2
  · obtain ⟨hpos, heq⟩ | ⟨hempty, heq⟩ := exec_ret_cases s
    · refine ⟨_, heq, ?_⟩
      rw [dif_pos hpos]
      exact ⟨rfl, BitVec.toNat_add _ 2, rfl, .of_mem_eq rfl rfl, State.highPcFetchFaults _⟩
    · refine ⟨_, heq, ?_⟩
      rw [dif_neg (by omega)]
      exact s.raiseFault_entersFault .stackUnderflow (by decide)

end Sys2Proof.Machine
end

section
/-! PROOFS. Registers and ALU (42_register_alu.md): the rows of the decoder that a mask names, what a result with and without a
flag writes and leaves, the values of the operations, and with them the loads, ADD Vx,byte, the logic, SUB, SUBN and the shifts. -/

namespace Sys2Proof

/-! ### The rows of the register operations (R75) -/

section
variable {strict : Bool} {op : Word}

theorem decode_ldImm (h : op &&& 0xF000#16 = 0x6000#16) :
    decode strict op = .instr (.ldImm (fieldX op) (fieldKK op)) := by
  rw [decode, fieldG_of_mask h rfl]; rfl

theorem decode_addImm (h : op &&& 0xF000#16 = 0x7000#16) :
    decode strict op = .instr (.addImm (fieldX op) (fieldKK op)) := by
  rw [decode, fieldG_of_mask h rfl]; rfl

theorem decode_group8 (h : fieldG op = 0x8#4) : decode strict op = decodeGroup8 op := by
  rw [decode, h]; rfl

theorem decode_ldReg (h : op &&& 0xF00F#16 = 0x8000#16) :
    decode strict op = .instr (.ldReg (fieldX op) (fieldY op)) := by
  rw [decode_group8 (fieldG_of_mask h rfl), decodeGroup8, fieldN_of_mask h rfl]; rfl

theorem decode_orReg (h : op &&& 0xF00F#16 = 0x8001#16) :
    decode strict op = .instr (.orReg (fieldX op) (fieldY op)) := by
  rw [decode_group8 (fieldG_of_mask h rfl), decodeGroup8, fieldN_of_mask h rfl]; rfl

theorem decode_andReg (h : op &&& 0xF00F#16 = 0x8002#16) :
    decode strict op = .instr (.andReg (fieldX op) (fieldY op)) := by
  rw [decode_group8 (fieldG_of_mask h rfl), decodeGroup8, fieldN_of_mask h rfl]; rfl

theorem decode_xorReg (h : op &&& 0xF00F#16 = 0x8003#16) :
    decode strict op = .instr (.xorReg (fieldX op) (fieldY op)) := by
  rw [decode_group8 (fieldG_of_mask h rfl), decodeGroup8, fieldN_of_mask h rfl]; rfl

theorem decode_sub (h : op &&& 0xF00F#16 = 0x8005#16) :
    decode strict op = .instr (.sub (fieldX op) (fieldY op)) := by
  rw [decode_group8 (fieldG_of_mask h rfl), decodeGroup8, fieldN_of_mask h rfl]; rfl

theorem decode_shr (h : op &&& 0xF00F#16 = 0x8006#16) :
    decode strict op = .instr (.shr (fieldX op) (fieldY op)) := by
  rw [decode_group8 (fieldG_of_mask h rfl), decodeGroup8, fieldN_of_mask h rfl]; rfl

theorem decode_subn (h : op &&& 0xF00F#16 = 0x8007#16) :
    decode strict op = .instr (.subn (fieldX op) (fieldY op)) := by
  rw [decode_group8 (fieldG_of_mask h rfl), decodeGroup8, fieldN_of_mask h rfl]; rfl

theorem decode_shl (h : op &&& 0xF00F#16 = 0x800E#16) :
    decode strict op = .instr (.shl (fieldX op) (fieldY op)) := by
  rw [decode_group8 (fieldG_of_mask h rfl), decodeGroup8, fieldN_of_mask h rfl]; rfl

end

end Sys2Proof

namespace Sys2Proof.Machine

/-! ### A result without a flag -/

theorem State.resultOnly_reg_self (s : State) (x : Reg) (w : Byte) : (s.resultOnly x w).reg x = w := by
  rw [State.resultOnly_reg, if_pos rfl]

/-- A result without a flag leaves all but V[x] and PC, which moves on by 2. -/
theorem State.resultOnly_frame (s : State) (x : Reg) (w : Byte) :
    (∀ r, r ≠ x → (s.resultOnly x w).reg r = s.reg r) ∧ PcBy s (s.resultOnly x w) 2 ∧
      OnlyRegsPc s (s.resultOnly x w) ∧ SameBytes s (s.resultOnly x w) :=
  ⟨fun _ hr => by rw [State.resultOnly_reg, if_neg hr], s.advance_pcBy, s.resultOnly_eq x w, .of_mem_eq rfl rfl⟩

/-- Settles O39: both loads are results without a flag. -/
theorem loadsCopyIntoVx : Obligations.LoadsCopyIntoVx :=
  ⟨fun _ _ => decode_ldImm, fun _ _ => decode_ldReg,
    fun x kk s => ⟨_, rfl, s.resultOnly_reg_self x kk, s.resultOnly_frame x kk⟩,
    fun x y s => ⟨_, rfl, s.resultOnly_reg_self x (s.reg y), s.resultOnly_frame x (s.reg y)⟩⟩

/-- Settles O40: the sum of two bytes wraps and is written without a flag. -/
theorem addImmediateWrapsWithoutFlag : Obligations.AddImmediateWrapsWithoutFlag := by
  refine ⟨fun _ _ => decode_addImm, fun x kk s => ⟨_, rfl, ?_, s.resultOnly_frame x (s.reg x + kk)⟩⟩
  rw [State.resultOnly_reg_self, BitVec.toNat_add]

/-- Settles O41: the operations of bit vectors are bitwise, and their results are written without a flag. -/
theorem logicIsBitwiseWithoutFlag : Obligations.LogicIsBitwiseWithoutFlag := by
  refine ⟨fun _ _ => decode_orReg, fun _ _ => decode_andReg, fun _ _ => decode_xorReg, fun x y s =>
    ⟨⟨_, rfl, fun b => ?_, s.resultOnly_frame x _⟩, ⟨_, rfl, fun b => ?_, s.resultOnly_frame x _⟩,
      ⟨_, rfl, fun b => ?_, s.resultOnly_frame x _⟩⟩⟩
  · rw [State.resultOnly_reg_self, BitVec.getLsbD_or]
  · rw [State.resultOnly_reg_self, BitVec.getLsbD_and]
  · rw [State.resultOnly_reg_self, BitVec.getLsbD_xor]

/-! ### A result with a flag (R131) -/

theorem State.resultWithFlag_reg_self (s : State) (x : Reg) (flag w : Byte) :
    (s.resultWithFlag x flag w).reg x = w := by
  rw [State.resultWithFlag_reg, if_pos rfl]

theorem State.resultWithFlag_reg_vf (s : State) {x : Reg} (flag w : Byte) (hx : x ≠ regVF) :
    (s.resultWithFlag x flag w).reg regVF = flag := by
  rw [State.resultWithFlag_reg, if_neg hx.symm, if_pos rfl]

/-- A result with a flag leaves all but V[x], VF and PC, which moves on by 2. -/
theorem State.resultWithFlag_frame (s : State) (x : Reg) (flag w : Byte) :
    (∀ r, r ≠ x → r ≠ regVF → (s.resultWithFlag x flag w).reg r = s.reg r) ∧ PcBy s (s.resultWithFlag x flag w) 2 ∧
      OnlyRegsPc s (s.resultWithFlag x flag w) ∧ SameBytes s (s.resultWithFlag x flag w) :=
  ⟨fun _ hx hF => by rw [State.resultWithFlag_reg, if_neg hx, if_neg hF], s.advance_pcBy,
    s.resultWithFlag_eq x flag w, .of_mem_eq rfl rfl⟩

/-- What a result with a flag writes, as numbers: V[x] takes the result, and VF the flag unless it is V[x]. -/
theorem State.resultWithFlag_toNat (s : State) (x : Reg) {flag w : Byte} {f n : Nat} (hw : w.toNat = n)
    (hf : flag.toNat = f) :
    ((s.resultWithFlag x flag w).reg x).toNat = n ∧
      (x ≠ regVF → ((s.resultWithFlag x flag w).reg regVF).toNat = f) :=
  ⟨by rw [State.resultWithFlag_reg_self, hw], fun hx => by rw [State.resultWithFlag_reg_vf s flag w hx, hf]⟩

/-! ### Differences (R139, R141) -/

theorem greaterFlag_toNat (a b : Byte) : (greaterFlag a b).toNat = if b.toNat < a.toNat then 1 else 0 := by
  simp [greaterFlag]

/-- The difference of two bytes, with the borrow added before the subtraction of numbers. -/
theorem byte_sub_toNat (a b : Byte) : (a - b).toNat = (a.toNat + 256 - b.toNat) % 256 := by
  have hb := b.isLt
  rw [BitVec.toNat_sub]
  congr 1
  omega

/-- Settles O43: both write a difference and its strict comparison, SUBN with the operands exchanged. -/
theorem subtractionsSetStrictGreater : Obligations.SubtractionsSetStrictGreater := by
  refine ⟨fun _ _ => decode_sub, fun _ _ => decode_subn, fun x y s => ⟨?_, ?_⟩⟩
  · obtain ⟨hres, hflag⟩ :=
      s.resultWithFlag_toNat x (byte_sub_toNat (s.reg x) (s.reg y)) (greaterFlag_toNat (s.reg x) (s.reg y))
    exact ⟨_, rfl, hres, hflag, s.resultWithFlag_frame x _ _⟩
  · obtain ⟨hres, hflag⟩ :=
      s.resultWithFlag_toNat x (byte_sub_toNat (s.reg y) (s.reg x)) (greaterFlag_toNat (s.reg y) (s.reg x))
    exact ⟨_, rfl, hres, hflag, s.resultWithFlag_frame x _ _⟩

/-! ### Shifts by one (R140, R142) -/

theorem byte_ushiftRight_one_toNat (a : Byte) : (a >>> 1).toNat = a.toNat / 2 := by
  rw [BitVec.toNat_ushiftRight, Nat.shiftRight_one]

theorem byte_shiftLeft_one_toNat (a : Byte) : (a <<< 1).toNat = a.toNat * 2 % 256 := by
  rw [BitVec.toNat_shiftLeft, Nat.shiftLeft_eq]

/-- Settles O44: both shift V[x] and write the bit shifted out; neither reads y. -/
theorem shiftsMoveVxByOne : Obligations.ShiftsMoveVxByOne := by
  refine ⟨fun _ _ => decode_shr, fun _ _ => decode_shl, fun x y s => ⟨?_, ?_⟩⟩
  · obtain ⟨hres, hflag⟩ :=
      s.resultWithFlag_toNat x (byte_ushiftRight_one_toNat (s.reg x)) (shrFlag_toNat (s.reg x))
    exact ⟨_, rfl, fun _ => rfl, hres, hflag, s.resultWithFlag_frame x _ _⟩
  · obtain ⟨hres, hflag⟩ :=
      s.resultWithFlag_toNat x (byte_shiftLeft_one_toNat (s.reg x)) (shlFlag_toNat (s.reg x))
    exact ⟨_, rfl, fun _ => rfl, hres, hflag, s.resultWithFlag_frame x _ _⟩

end Sys2Proof.Machine
end

section
/-! PROOFS. Index register and memory transfers (43_index_memory.md): the rows of the decoder that a mask names, what a write of I,
a store of bytes and a load of registers do and leave, the bounds check at I, and with them LD I,addr, LD F,Vx, LD B,Vx and
LD Vx,[I]. -/

namespace Sys2Proof

/-! ### The rows of I and of group F (R75) -/

section
variable {strict : Bool} {op : Word}

theorem decode_ldI (h : op &&& 0xF000#16 = 0xA000#16) : decode strict op = .instr (.ldI (fieldNNN op)) := by
  rw [decode, fieldG_of_mask h rfl]; rfl

theorem decode_groupF (h : fieldG op = 0xF#4) : decode strict op = decodeGroupF op := by
  rw [decode, h]; rfl

theorem decode_ldF (h : op &&& 0xF0FF#16 = 0xF029#16) : decode strict op = .instr (.ldF (fieldX op)) := by
  rw [decode_groupF (fieldG_of_mask h rfl), decodeGroupF, fieldKK_of_mask h rfl]; rfl

theorem decode_ldB (h : op &&& 0xF0FF#16 = 0xF033#16) : decode strict op = .instr (.ldB (fieldX op)) := by
  rw [decode_groupF (fieldG_of_mask h rfl), decodeGroupF, fieldKK_of_mask h rfl]; rfl

theorem decode_ldVxMem (h : op &&& 0xF0FF#16 = 0xF065#16) : decode strict op = .instr (.ldVxMem (fieldX op)) := by
  rw [decode_groupF (fieldG_of_mask h rfl), decodeGroupF, fieldKK_of_mask h rfl]; rfl

end

end Sys2Proof

namespace Sys2Proof.Machine

/-! ### Writes of I (R160, R162) -/

/-- A write of I leaves all but I and PC, which moves on by 2. -/
theorem State.setI_advance_frame (s : State) (w : Word) :
    PcBy s (s.setI w).advance 2 ∧ (s.setI w).advance = { s with i := w, pc := (s.setI w).advance.pc } ∧
      SameBytes s (s.setI w).advance :=
  ⟨s.advance_pcBy, rfl, .of_mem_eq rfl rfl⟩

/-- Five times a byte is an exact number: 5 * 255 is below 65536 (R162). -/
theorem zextByte_mul_glyphBytes_toNat (w : Byte) :
    (zextByte w * BitVec.ofNat 16 Config.glyphBytes).toNat = w.toNat * 5 := by
  have hw := w.isLt
  rw [BitVec.toNat_mul, zextByte_toNat]
  exact Nat.mod_eq_of_lt (show w.toNat * 5 < 65536 by omega)

/-- Settles O46: both write I and PC only, I with the extended address or the product, which does not wrap. -/
theorem loadsOfI : Obligations.LoadsOfI :=
  ⟨fun _ _ => decode_ldI, fun _ _ => decode_ldF,
    fun nnn s => ⟨_, rfl, zextAddr_toNat nnn, s.setI_advance_frame _⟩,
    fun x s => ⟨_, rfl, zextByte_mul_glyphBytes_toNat (s.reg x), s.setI_advance_frame _⟩⟩

/-! ### The bounds check at I (R55, R56) -/

/-- An access to I, ..., I + n is its effect when I + n is in memory, else the fault at the lowest address outside. -/
theorem State.checkedAccess_base_cases (s t : State) (c : FaultCode) (n : Nat) :
    (s.i.toNat + n < 4096 ∧ s.checkedAccess c s.base (n + 1) t = t) ∨
      (¬ s.i.toNat + n < 4096 ∧ EntersFault s (s.checkedAccess c s.base (n + 1) t) c (max s.i.toNat 4096)) := by
  have hlegal : rangeLegal s.base (n + 1) = true ↔ s.i.toNat + n < 4096 := by
    rw [rangeLegal_iff]
    show n + 1 = 0 ∨ s.i.toNat + (n + 1) ≤ 4096 ↔ _
    omega
  have hi := s.i.isLt
  obtain ⟨hr, heq⟩ | ⟨hr, heq⟩ := s.checkedAccess_cases t c s.base (n + 1)
  · exact .inl ⟨hlegal.1 hr, heq⟩
  · refine .inr ⟨fun h => by simp [hlegal.2 h] at hr, ?_⟩
    rw [heq]
    exact s.raiseFault_entersFault c (max_lt hi (by decide))

/-! ### Stores of bytes -/

/-- A stored byte reads back. -/
theorem State.readByte_writeBytes_of_getElem? {s : State} (h : s.memWf) {base k : Nat} {ws : List Byte} {w : Byte}
    (hin : base + ws.length ≤ Config.memSize) (hk : ws[k]? = some w) :
    (s.writeBytes base ws).readByte (base + k) = w := by
  rw [State.readByte_writeBytes h base _ ws hin, if_pos (Nat.le_add_right base k), Nat.add_sub_cancel_left, hk,
    Option.getD_some]

/-- A byte outside the stored range reads as before. -/
theorem State.readByte_writeBytes_outside {s : State} (h : s.memWf) {base a : Nat} {ws : List Byte}
    (hin : base + ws.length ≤ Config.memSize) (ha : a < base ∨ base + ws.length ≤ a) :
    (s.writeBytes base ws).readByte a = s.readByte a := by
  rw [State.readByte_writeBytes h base a ws hin]
  obtain hlt | hge := ha
  · exact if_neg (Nat.not_le.2 hlt)
  · rw [List.getElem?_eq_none (by omega), Option.getD_none, ite_self]

/-- A store leaves all but memory and PC, which moves on by 2. -/
theorem State.writeBytes_advance_frame (s : State) (base : Nat) (ws : List Byte) :
    PcBy s (s.writeBytes base ws).advance 2 ∧
      (s.writeBytes base ws).advance =
        { s with mem := (s.writeBytes base ws).advance.mem, pc := (s.writeBytes base ws).advance.pc } := by
  rw [State.writeBytes_eq_setMem]
  exact ⟨s.advance_pcBy, rfl⟩

/-- A stored number below 256 reads back as itself. -/
theorem State.toNat_readByte_writeBytes {s : State} (h : s.memWf) {base k n : Nat} {ws : List Byte}
    (hin : base + ws.length ≤ Config.memSize) (hk : ws[k]? = some (BitVec.ofNat 8 n)) (hn : n < 256) :
    ((s.writeBytes base ws).readByte (base + k)).toNat = n := by
  rw [State.readByte_writeBytes_of_getElem? h hin hk, BitVec.toNat_ofNat]
  exact Nat.mod_eq_of_lt hn

/-- Settles O48: the three digits are stored at I, I + 1 and I + 2 when they are in memory, else the store faults. -/
theorem bcdStoresThreeDigits : Obligations.BcdStoresThreeDigits := by
  refine ⟨fun _ _ => decode_ldB, fun x s hwf => ⟨_, rfl, ?_⟩⟩
  obtain ⟨hlt, heq⟩ | ⟨hge, hfault⟩ :=
    s.checkedAccess_base_cases (s.writeBytes s.base (bcdDigits (s.reg x))).advance .addrWrite 2
  · rw [if_pos hlt, heq]
    have hin : s.base + (bcdDigits (s.reg x)).length ≤ Config.memSize := hlt
    have hv := (s.reg x).isLt
    exact ⟨State.toNat_readByte_writeBytes hwf hin (k := 0) rfl (by omega),
      State.toNat_readByte_writeBytes hwf hin (k := 1) rfl (by omega),
      State.toNat_readByte_writeBytes hwf hin (k := 2) rfl (by omega),
      fun _ ha => State.readByte_writeBytes_outside hwf hin ha, s.writeBytes_advance_frame _ _⟩
  · rw [if_neg hge]
    exact hfault

/-! ### Loads of registers -/

/-- A load of V[0], ..., V[x] from memory gives each its own byte and reaches no register above x. -/
theorem State.reg_loadRegs_readBytes (s : State) (base : Nat) (x r : Reg) :
    (s.loadRegs 0 (s.readBytes base (x.val + 1))).reg r =
      if r.val ≤ x.val then s.readByte (base + r.val) else s.reg r := by
  have hx := x.isLt
  rw [State.reg_loadRegs _ _ _ (by rw [State.readBytes_length]; omega), if_pos (Nat.zero_le _), Nat.sub_zero,
    State.getElem?_readBytes]
  by_cases hr : r.val ≤ x.val
  · rw [if_pos hr, if_pos (Nat.lt_succ_of_le hr), Option.getD_some]
  · rw [if_neg hr, if_neg (by omega), Option.getD_none]

/-- A load of registers leaves all but V registers and PC, which moves on by 2. -/
theorem State.loadRegs_advance_frame (s : State) (k : Nat) (ws : List Byte) :
    PcBy s (s.loadRegs k ws).advance 2 ∧ OnlyRegsPc s (s.loadRegs k ws).advance ∧
      SameBytes s (s.loadRegs k ws).advance := by
  rw [State.loadRegs_eq]
  exact ⟨s.advance_pcBy, rfl, .of_mem_eq rfl rfl⟩

/-- Settles O50: V[0] to V[x] take the bytes at I to I + x when they are in memory, else the load faults. -/
theorem loadRegistersFromI : Obligations.LoadRegistersFromI := by
  refine ⟨fun _ _ => decode_ldVxMem, fun x s => ⟨_, rfl, ?_⟩⟩
  obtain ⟨hlt, heq⟩ | ⟨hge, hfault⟩ :=
    s.checkedAccess_base_cases (s.loadRegs 0 (s.readBytes s.base (x.val + 1))).advance .addrRead x.val
  · rw [if_pos hlt, heq]
    refine ⟨fun k hk => ?_, fun k hk => ?_, s.loadRegs_advance_frame _ _⟩
    · exact (s.reg_loadRegs_readBytes s.base x k).trans (if_pos hk)
    · exact (s.reg_loadRegs_readBytes s.base x k).trans (if_neg (Nat.not_le.2 hk))
  · rw [if_neg hge]
    exact hfault

end Sys2Proof.Machine
end

section
/-! PROOFS. Display (44_display.md): what a write of the buffer leaves unchanged, and with it CLS. -/

namespace Sys2Proof.Machine

/-- A write of the display buffer leaves all but the buffer and PC, which moves on by 2. -/
theorem State.setDisp_advance_frame (s : State) (d : Display) :
    PcBy s (s.setDisp d).advance 2 ∧
      (s.setDisp d).advance = { s with disp := (s.setDisp d).advance.disp, pc := (s.setDisp d).advance.pc } ∧
      SameBytes s (s.setDisp d).advance :=
  ⟨s.advance_pcBy, rfl, .of_mem_eq rfl rfl⟩

/-- Settles O52: CLS is a write of the cleared buffer, and every pixel of that buffer is off. -/
theorem clsClearsEveryPixel : Obligations.ClsClearsEveryPixel :=
  ⟨fun _ => rfl, fun s => ⟨_, rfl, getElem_clearDisplay, s.setDisp_advance_frame clearDisplay⟩⟩

end Sys2Proof.Machine
end

section
/-! PROOFS. Key input and timers (45_input_timers.md): the rows of the decoder that a mask names, the skip after a take of the
key slot, a write of DT, what a completion does to V and DT, and with them SKP, SKNP, LD Vx,DT and LD DT,Vx. -/

namespace Sys2Proof

/-! ### The rows of key input and the delay timer (R75) -/

section
variable {strict : Bool} {op : Word}

theorem decode_groupE (h : fieldG op = 0xE#4) : decode strict op = decodeGroupE op := by
  rw [decode, h]; rfl

theorem decode_skp (h : op &&& 0xF0FF#16 = 0xE09E#16) : decode strict op = .instr (.skp (fieldX op)) := by
  rw [decode_groupE (fieldG_of_mask h rfl), decodeGroupE, fieldKK_of_mask h rfl]; rfl

theorem decode_sknp (h : op &&& 0xF0FF#16 = 0xE0A1#16) : decode strict op = .instr (.sknp (fieldX op)) := by
  rw [decode_groupE (fieldG_of_mask h rfl), decodeGroupE, fieldKK_of_mask h rfl]; rfl

theorem decode_ldVxDt (h : op &&& 0xF0FF#16 = 0xF007#16) : decode strict op = .instr (.ldVxDt (fieldX op)) := by
  rw [decode_groupF (fieldG_of_mask h rfl), decodeGroupF, fieldKK_of_mask h rfl]; rfl

theorem decode_ldDtVx (h : op &&& 0xF0FF#16 = 0xF015#16) : decode strict op = .instr (.ldDtVx (fieldX op)) := by
  rw [decode_groupF (fieldG_of_mask h rfl), decodeGroupF, fieldKK_of_mask h rfl]; rfl

end

end Sys2Proof

namespace Sys2Proof.Machine

/-! ### The skip after a take of the key slot (R196, R197) -/

/-- An empty slot and any other key do not match V[x] (R197). -/
theorem keyMatches_eq_false_iff (k : Option Nibble) (w : Byte) :
    keyMatches k w = false ↔ ∀ key, k = some key → key.toNat ≠ w.toNat := by
  rw [← Bool.not_eq_true, keyMatches_iff]
  simp only [not_exists, not_and, ne_eq]

/-- A take of the key slot leaves PC, so the skip counts from the state before it. -/
theorem State.keyTake_skipIf_pcBy (s : State) {c b : Bool} (h : c = b) :
    PcBy s (s.keyTake.2.skipIf c) (if b then 4 else 2) :=
  h ▸ s.keyTake.2.skipIf_pcBy c

/-- A take of the key slot and a skip empty the slot, write PC, and leave the rest. -/
theorem State.keyTake_skipIf_frame (s : State) (c : Bool) :
    s.keyTake.2.skipIf c = { s with keySlot := none, pc := (s.keyTake.2.skipIf c).pc } ∧
      SameBytes s (s.keyTake.2.skipIf c) := by
  obtain ⟨honly, hbytes, -⟩ := s.keyTake.2.skipIf_frame c
  exact ⟨honly, hbytes⟩

/-- Settles O54: both take the key slot and skip, SKP on a match of V[x], SKNP on its negation. -/
theorem keySkipsTakeTheKey : Obligations.KeySkipsTakeTheKey := by
  refine ⟨fun _ _ => decode_skp, fun _ _ => decode_sknp, fun x s => ?_⟩
  have hkey := keyMatches_iff s.keySlot (s.reg x)
  have hother := keyMatches_eq_false_iff s.keySlot (s.reg x)
  constructor
  · exact ⟨_, rfl, fun h => s.keyTake_skipIf_pcBy (hkey.2 h), fun h => s.keyTake_skipIf_pcBy (hother.2 h),
      s.keyTake_skipIf_frame _⟩
  · exact ⟨_, rfl, fun h => s.keyTake_skipIf_pcBy (congrArg Bool.not (hkey.2 h)),
      fun h => s.keyTake_skipIf_pcBy (congrArg Bool.not (hother.2 h)), s.keyTake_skipIf_frame _⟩

/-! ### The delay timer (R200, R201) -/

/-- A completion writes no V register. -/
@[simp] theorem State.completeInstruction_reg (s : State) (r : Reg) : s.completeInstruction.reg r = s.reg r :=
  State.reg_congr (by rw [State.completeInstruction_eq]) r

/-- At a wrap of the cadence counter the completion counts DT down. -/
theorem State.completeInstruction_dt_of_wrap {s : State} (h : (s.tc + 1) % s.params.timerDivider.val = 0) :
    s.completeInstruction.dt = countDown s.dt := by
  rw [State.completeInstruction_eq]
  exact if_pos h

/-- A write of DT leaves all but DT and PC, which moves on by 2. -/
theorem State.setDt_advance_frame (s : State) (w : Byte) :
    PcBy s (s.setDt w).advance 2 ∧
      (s.setDt w).advance = { s with dt := (s.setDt w).advance.dt, pc := (s.setDt w).advance.pc } ∧
      SameBytes s (s.setDt w).advance :=
  ⟨s.advance_pcBy, rfl, .of_mem_eq rfl rfl⟩

/-- Settles O56: the load of V[x] is a result without a flag that the completion leaves; the load of DT leaves tc, and a timer
event at the completion counts the loaded value down. -/
theorem delayTimerAccess : Obligations.DelayTimerAccess := by
  refine ⟨fun _ _ => decode_ldVxDt, fun _ _ => decode_ldDtVx, fun x s => ⟨?_, ?_⟩⟩
  · obtain ⟨hother, hpc, honly, hbytes⟩ := s.resultOnly_frame x s.dt
    have hself := s.resultOnly_reg_self x s.dt
    exact ⟨_, rfl, hself, hother, hpc, honly, hbytes, (State.completeInstruction_reg _ x).trans hself⟩
  · obtain ⟨hpc, hframe, hbytes⟩ := s.setDt_advance_frame (s.reg x)
    refine ⟨_, rfl, rfl, hpc, hframe, hbytes, fun hwrap => ?_⟩
    have hdt : (s.setDt (s.reg x)).advance.completeInstruction.dt = countDown (s.reg x) :=
      State.completeInstruction_dt_of_wrap hwrap
    rw [hdt, countDown_toNat]

end Sys2Proof.Machine
end

section
/-! PROOFS. The timer event (60_exceptions.md): a timer at 0, the `playing` level, and what the event leaves unchanged. -/

namespace Sys2Proof.Machine

/-! ### One timer (R227) -/

/-- The clamp of R227: a timer at 0 is not counted down. -/
@[simp] theorem countDown_zero : countDown 0 = 0 := if_pos rfl

/-! ### The timer event (R227) -/

/-- The event compares the sound timer it has counted down, not the one it found. -/
theorem State.timerEvent_playing_iff (s : State) : s.timerEvent.playing = true ↔ 0 < s.timerEvent.st.toNat :=
  decide_eq_true_iff

/-- A timer event writes DT, ST and `playing` and leaves the rest. -/
theorem State.timerEvent_frame (s : State) :
    s.timerEvent =
      { s with dt := s.timerEvent.dt, st := s.timerEvent.st, playing := s.timerEvent.playing } := rfl

/-- Settles O15: each timer is counted down by `countDown`, which is truncated subtraction of 1 and keeps 0; `playing` and the
frame are the event's own lemmas. -/
theorem timerEventCountsDown : Obligations.TimerEventCountsDown := by
  intro s
  have hclamp {w : Byte} (h : w = 0) : countDown w = 0 := h ▸ countDown_zero
  exact ⟨fun _ => countDown_toNat s.dt, hclamp, fun _ => countDown_toNat s.st, hclamp,
    s.timerEvent_playing_iff, s.timerEvent_frame⟩

end Sys2Proof.Machine
end

section
/-! PROOFS. The store and the fetch after it (70_reset_and_hazards.md R272): a store that stays in memory does not fault, and
after a sequential instruction the fetch is at PC + 2 and PC + 3. -/

namespace Sys2Proof.Machine

/-! ### The stores in memory (R163, R164) -/

/-- The bounds check of bytes that are in memory lets the effect happen. -/
theorem State.checkedAccess_of_le {s t : State} {c : FaultCode} {base len : Nat} (h : base + len ≤ Config.memSize) :
    s.checkedAccess c base len t = t :=
  State.checkedAccess_of_legal ((rangeLegal_iff base len).2 (.inr h))

theorem exec_ldB_of_le {x : Reg} {s : State} (h : s.base + (bcdDigits (s.reg x)).length ≤ Config.memSize) :
    exec (.ldB x) s = .next (s.writeBytes s.base (bcdDigits (s.reg x))).advance :=
  congrArg _ (State.checkedAccess_of_le h)

theorem exec_ldMemVx_of_le {x : Reg} {s : State} (h : s.base + (s.regsUpTo x).length ≤ Config.memSize) :
    exec (.ldMemVx x) s = .next (s.writeBytes s.base (s.regsUpTo x)).advance :=
  congrArg _ (State.checkedAccess_of_le (s.regsUpTo_length x ▸ h))

@[simp] theorem State.writeBytes_pc (s : State) (base : Nat) (ws : List Byte) : (s.writeBytes base ws).pc = s.pc := by
  rw [State.writeBytes_eq_setMem, State.setMem_pc]

/-! ### The fetch at PC + 2 (R92, R96) -/

/-- When both bytes after this opcode are in memory, PC + 2 does not wrap and the fetch finds their opcode. -/
theorem State.fetch_advance {s : State} (h : s.pc.toNat + 3 < Config.memSize) :
    s.advance.fetch = .opcode (opcodeOfBytes (s.readByte (s.pc.toNat + 2)) (s.readByte (s.pc.toNat + 3))) := by
  have hpc : s.advance.pc.toNat = s.pc.toNat + 2 :=
    s.advance_pcBy.trans (Nat.mod_eq_of_lt (Nat.lt_trans (Nat.lt_of_succ_lt h) (by decide)))
  have hfetch := State.fetch_of_lt (s := s.advance) (by rwa [hpc])
  rwa [hpc, State.readByte_congr s.advance_mem s.advance_params,
    State.readByte_congr s.advance_mem s.advance_params] at hfetch

/-- Settles O51: either instruction stores its bytes and advances, so the next fetch reads the memory after the store. -/
theorem nextFetchSeesStore : Obligations.NextFetchSeesStore := by
  intro i x ws s hi hwf hin hpc stored
  have hexec : exec i s = .next (s.writeBytes s.base ws).advance := by
    obtain ⟨rfl, rfl⟩ | ⟨rfl, rfl⟩ := hi
    · exact exec_ldB_of_le hin
    · exact exec_ldMemVx_of_le hin
  have hread (a : Nat) : (s.writeBytes s.base ws).readByte a = stored a :=
    State.readByte_writeBytes hwf s.base a ws hin
  refine ⟨_, hexec, ?_⟩
  rw [State.fetch_advance (by rwa [State.writeBytes_pc]), State.writeBytes_pc, hread, hread]

end Sys2Proof.Machine
end

section
/-! PROOFS. Encoding (30_encoding.md): the rows of the decoder that no section above names, the word that the fields of an opcode
encode, what is UNDEFINED in each group, and with them the two round trips, the list of UNDEFINED opcodes, the rows and
DECODE_5_9_STRICT. -/

namespace Sys2Proof

/-! ### The rows left (R75) -/

section
variable {strict : Bool} {op : Word}

theorem decode_group0 (h : fieldG op = 0x0#4) : decode strict op = decodeGroup0 op := by
  rw [decode, h]; rfl

theorem decode_sys (h : op &&& 0xF000#16 = 0x0000#16) (hcls : op ≠ 0x00E0#16) (hret : op ≠ 0x00EE#16) :
    decode strict op = .instr (.sys (fieldNNN op)) := by
  rw [decode_group0 (fieldG_of_mask h rfl), decodeGroup0, if_neg hcls, if_neg hret]

theorem decode_seReg (h : op &&& 0xF00F#16 = 0x5000#16) :
    decode strict op = .instr (.seReg (fieldX op) (fieldY op)) :=
  (decode_group5 (fieldG_of_mask h rfl)).trans (decodeGroup59_of_fieldN_zero (fieldN_of_mask h rfl))

theorem decode_addReg (h : op &&& 0xF00F#16 = 0x8004#16) :
    decode strict op = .instr (.addReg (fieldX op) (fieldY op)) := by
  rw [decode_group8 (fieldG_of_mask h rfl), decodeGroup8, fieldN_of_mask h rfl]; rfl

theorem decode_sneReg (h : op &&& 0xF00F#16 = 0x9000#16) :
    decode strict op = .instr (.sneReg (fieldX op) (fieldY op)) :=
  (decode_group9 (fieldG_of_mask h rfl)).trans (decodeGroup59_of_fieldN_zero (fieldN_of_mask h rfl))

theorem decode_rnd (h : op &&& 0xF000#16 = 0xC000#16) :
    decode strict op = .instr (.rnd (fieldX op) (fieldKK op)) := by
  rw [decode, fieldG_of_mask h rfl]; rfl

theorem decode_drw (h : op &&& 0xF000#16 = 0xD000#16) :
    decode strict op = .instr (.drw (fieldX op) (fieldY op) (fieldN op)) := by
  rw [decode, fieldG_of_mask h rfl]; rfl

theorem decode_ldVxK (h : op &&& 0xF0FF#16 = 0xF00A#16) : decode strict op = .instr (.ldVxK (fieldX op)) := by
  rw [decode_groupF (fieldG_of_mask h rfl), decodeGroupF, fieldKK_of_mask h rfl]; rfl

theorem decode_ldStVx (h : op &&& 0xF0FF#16 = 0xF018#16) : decode strict op = .instr (.ldStVx (fieldX op)) := by
  rw [decode_groupF (fieldG_of_mask h rfl), decodeGroupF, fieldKK_of_mask h rfl]; rfl

theorem decode_addI (h : op &&& 0xF0FF#16 = 0xF01E#16) : decode strict op = .instr (.addI (fieldX op)) := by
  rw [decode_groupF (fieldG_of_mask h rfl), decodeGroupF, fieldKK_of_mask h rfl]; rfl

theorem decode_ldMemVx (h : op &&& 0xF0FF#16 = 0xF055#16) : decode strict op = .instr (.ldMemVx (fieldX op)) := by
  rw [decode_groupF (fieldG_of_mask h rfl), decodeGroupF, fieldKK_of_mask h rfl]; rfl

end

/-! ### Decoding an encoded instruction (R84) -/

/-- The word of a SYS is of group 0, and CLS and RET are the words of the two addresses that `Instr.wf` excludes. -/
theorem decode_encNNN_sys (strict : Bool) {nnn : Addr} (hcls : nnn ≠ 0x0E0#12) (hret : nnn ≠ 0x0EE#12) :
    decode strict (encNNN 0x0 nnn) = .instr (.sys nnn) := by
  have hne {a : Addr} {op : Word} (ha : nnn ≠ a) (hop : fieldNNN op = a) : encNNN 0x0 nnn ≠ op := fun h =>
    ha (by rw [← hop, ← h, fieldNNN_encNNN])
  have hg : fieldG (encNNN 0x0 nnn) = 0x0#4 := fieldG_encNNN _ nnn
  rw [decode_group0 hg, decodeGroup0, if_neg (hne hcls rfl), if_neg (hne hret rfl), fieldNNN_encNNN]

/-- Settles O2: the fields of an encoded word are the operands, and its group with the fixed low bits selects its row. -/
theorem decodeOfEncode : Obligations.DecodeOfEncode := by
  intro strict i hwf
  cases i with
  | cls | ret => rfl
  | sys nnn =>
    simp only [Instr.wf, Bool.and_eq_true, bne_iff_ne] at hwf
    obtain ⟨hcls, hret⟩ := hwf
    exact decode_encNNN_sys strict hcls hret
  | jp | call | ldI | jpV0 => simp [encode, decode]
  | seImm | sneImm | ldImm | addImm | rnd | drw => simp [encode, decode]
  | seReg | sneReg => simp [encode, decode, decodeGroup59]
  | ldReg | orReg | andReg | xorReg | addReg | sub | shr | subn | shl => simp [encode, decode, decodeGroup8]
  | skp | sknp => simp [encode, decode, decodeGroupE]
  | ldVxDt | ldVxK | ldDtVx | ldStVx | addI | ldF | ldB | ldMemVx | ldVxMem => simp [encode, decode, decodeGroupF]

/-! ### The word of a decoded opcode (R75, R79) -/

/-- A decoder's answer for `op` that is an instruction is a well-formed one whose word is `op`. -/
def MeansWord (op : Word) (d : Decoded) : Prop := ∀ i, d = .instr i → encode i = op ∧ i.wf = true

section
variable {op : Word} {g : Nibble}

theorem meansWord_undefined (u : UndefinedGroup) : MeansWord op (.undefined u) := fun _ h => nomatch h

theorem meansWord_instr {i : Instr} (henc : encode i = op) (hwf : i.wf = true) : MeansWord op (.instr i) := by
  rintro _ ⟨⟩
  exact ⟨henc, hwf⟩

theorem encNNN_of_fieldG (hg : (fieldG op).toNat = g.toNat) : encNNN g (fieldNNN op) = op := by
  rw [← BitVec.eq_of_toNat_eq hg, encNNN_fields]

theorem encXKK_of_fieldG (hg : (fieldG op).toNat = g.toNat) : encXKK g (fieldX op) (fieldKK op) = op := by
  rw [← BitVec.eq_of_toNat_eq hg, encXKK_fields]

theorem encXKK_of_fieldG_fieldKK {kk : Byte} (hg : (fieldG op).toNat = g.toNat) (hk : (fieldKK op).toNat = kk.toNat) :
    encXKK g (fieldX op) kk = op := by
  rw [← BitVec.eq_of_toNat_eq hk, encXKK_of_fieldG hg]

theorem encXYN_of_fieldG (hg : (fieldG op).toNat = g.toNat) :
    encXYN g (fieldX op) (fieldY op) (fieldN op) = op := by
  rw [← BitVec.eq_of_toNat_eq hg, encXYN_fields]

theorem encXYN_of_fieldG_fieldN {n : Nibble} (hg : (fieldG op).toNat = g.toNat) (hn : (fieldN op).toNat = n.toNat) :
    encXYN g (fieldX op) (fieldY op) n = op := by
  rw [← BitVec.eq_of_toNat_eq hn, encXYN_of_fieldG hg]

/-- In group 0 the address fields of CLS and RET stand in their two words only. -/
theorem decodeGroup0_meansWord (hg : (fieldG op).toNat = 0) : MeansWord op (decodeGroup0 op) := by
  have hsys : encNNN 0x0 (fieldNNN op) = op := encNNN_of_fieldG hg
  unfold decodeGroup0
  split
  · exact meansWord_instr (Eq.symm ‹_›) rfl
  · split
    · exact meansWord_instr (Eq.symm ‹_›) rfl
    · rename_i hcls hret
      refine meansWord_instr hsys ?_
      simp only [Instr.wf, Bool.and_eq_true, bne_iff_ne]
      exact ⟨fun h => hcls (by rw [← hsys, h]; rfl), fun h => hret (by rw [← hsys, h]; rfl)⟩

/-- With DECODE_5_9_STRICT an instruction of group 5 or 9 has bottom nibble 0. -/
theorem decodeGroup59_meansWord {u : UndefinedGroup} {i : Instr} (hi : fieldN op = 0#4 → encode i = op)
    (hwf : i.wf = true) : MeansWord op (decodeGroup59 true u i op) := by
  by_cases hn : fieldN op = 0#4
  · rw [decodeGroup59_of_fieldN_zero hn]
    exact meansWord_instr (hi hn) hwf
  · simp only [decodeGroup59, Bool.true_and, bne_iff_ne.2 hn, ↓reduceIte]
    exact meansWord_undefined u

theorem decodeGroup8_meansWord (hg : (fieldG op).toNat = 8) : MeansWord op (decodeGroup8 op) := by
  unfold decodeGroup8
  split
  case h_10 => exact meansWord_undefined _
  all_goals exact meansWord_instr (encXYN_of_fieldG_fieldN hg ‹_›) rfl

theorem decodeGroupE_meansWord (hg : (fieldG op).toNat = 14) : MeansWord op (decodeGroupE op) := by
  unfold decodeGroupE
  split
  case h_3 => exact meansWord_undefined _
  all_goals exact meansWord_instr (encXKK_of_fieldG_fieldKK hg ‹_›) rfl

theorem decodeGroupF_meansWord (hg : (fieldG op).toNat = 15) : MeansWord op (decodeGroupF op) := by
  unfold decodeGroupF
  split
  case h_10 => exact meansWord_undefined _
  all_goals exact meansWord_instr (encXKK_of_fieldG_fieldKK hg ‹_›) rfl

end

/-- Settles O3: in each group the decoded row's fixed bits and the fields of the opcode are all of the opcode. -/
theorem encodeOfDecode : Obligations.EncodeOfDecode := by
  intro op
  show MeansWord op (decode true op)
  have hlt := (fieldG op).isLt
  unfold decode
  split
  case h_1 => exact decodeGroup0_meansWord ‹_›
  case h_6 | h_10 =>
    exact decodeGroup59_meansWord (fun hn => encXYN_of_fieldG_fieldN ‹_› (congrArg BitVec.toNat hn)) rfl
  case h_9 => exact decodeGroup8_meansWord ‹_›
  case h_15 => exact decodeGroupE_meansWord ‹_›
  case h_16 =>
    simp only [imp_false] at *
    exact decodeGroupF_meansWord (by omega)
  case h_2 | h_3 | h_11 | h_12 => exact meansWord_instr (encNNN_of_fieldG ‹_›) rfl
  case h_4 | h_5 | h_7 | h_8 | h_13 => exact meansWord_instr (encXKK_of_fieldG ‹_›) rfl
  case h_14 => exact meansWord_instr (encXYN_of_fieldG ‹_›) rfl

/-! ### The UNDEFINED opcodes (R78) -/

section
variable {op : Word}

theorem decodeGroup0_ne_undefined (u : UndefinedGroup) : decodeGroup0 op ≠ .undefined u := by
  unfold decodeGroup0
  split
  · nofun
  · split <;> nofun

theorem decodeGroup59_undefined_iff {strict : Bool} {u : UndefinedGroup} {i : Instr} :
    (∃ g, decodeGroup59 strict u i op = .undefined g) ↔ strict = true ∧ op.toNat % 16 ≠ 0 := by
  rw [← fieldN_toNat]
  by_cases hn : fieldN op = 0#4
  · simp [decodeGroup59, hn]
  · have hn' : (fieldN op).toNat ≠ 0 := fun h => hn (BitVec.eq_of_toNat_eq h)
    cases strict <;> simp [decodeGroup59, hn, hn']

theorem decodeGroup8_undefined_iff :
    (∃ g, decodeGroup8 op = .undefined g) ↔ op.toNat % 16 ∈ [0x8, 0x9, 0xA, 0xB, 0xC, 0xD, 0xF] := by
  have hlt := (fieldN op).isLt
  rw [← fieldN_toNat]
  unfold decodeGroup8
  split
  case h_10 =>
    refine iff_of_true ⟨_, rfl⟩ ?_
    simp only [imp_false, List.mem_cons, List.not_mem_nil] at *
    omega
  all_goals simp [*]

theorem decodeGroupE_undefined_iff :
    (∃ g, decodeGroupE op = .undefined g) ↔ op.toNat % 256 ∉ [0x9E, 0xA1] := by
  rw [← fieldKK_toNat]
  unfold decodeGroupE
  split <;> simp_all

theorem decodeGroupF_undefined_iff :
    (∃ g, decodeGroupF op = .undefined g) ↔
      op.toNat % 256 ∉ [0x07, 0x0A, 0x15, 0x18, 0x1E, 0x29, 0x33, 0x55, 0x65] := by
  rw [← fieldKK_toNat]
  unfold decodeGroupF
  split <;> simp_all

end

/-- Settles O4: each group's own list, and no UNDEFINED opcode in the groups without one. -/
theorem undefinedExactly : Obligations.UndefinedExactly := by
  intro strict op
  have hlt := op.isLt
  unfold decode
  split <;> rename_i hg
  case h_16 =>
    simp only [imp_false, fieldG_toNat] at *
    have hF : op.toNat / 4096 = 15 := by omega
    simp [decodeGroupF_undefined_iff, hF]
  all_goals rw [fieldG_toNat] at hg
  case h_1 => simp [decodeGroup0_ne_undefined, hg]
  case h_6 | h_10 => simp [decodeGroup59_undefined_iff, hg]
  case h_9 => simp [decodeGroup8_undefined_iff, hg]
  case h_15 => simp [decodeGroupE_undefined_iff, hg]
  all_goals simp [hg]

/-! ### Rows and the strict parameter (R76, R79) -/

theorem fieldG_ne_zero {op : Word} (h : op.toNat / 4096 ≠ 0) : fieldG op ≠ 0#4 := fun h0 =>
  h (by rw [← fieldG_toNat, h0]; rfl)

/-- Settles O5: a row outside group 0 is the row that its own decoder lemma names; the rows of group 0 fix group 0. -/
theorem matchingRowDecides : Obligations.MatchingRowDecides := by
  intro i op h hg
  have hne := fieldG_ne_zero hg
  cases i with
  | cls => exact absurd (fieldG_of_mask (show op &&& 0xFFFF#16 = 0x00E0#16 from h) rfl) hne
  | ret => exact absurd (fieldG_of_mask (show op &&& 0xFFFF#16 = 0x00EE#16 from h) rfl) hne
  | sys => exact absurd (fieldG_of_mask (show op &&& 0xF000#16 = 0x0000#16 from h) rfl) hne
  | jp => exact ⟨_, decode_jp h, rfl, rfl⟩
  | call => exact ⟨_, decode_call h, rfl, rfl⟩
  | seImm => exact ⟨_, decode_seImm h, rfl, rfl⟩
  | sneImm => exact ⟨_, decode_sneImm h, rfl, rfl⟩
  | seReg => exact ⟨_, decode_seReg h, rfl, rfl⟩
  | ldImm => exact ⟨_, decode_ldImm h, rfl, rfl⟩
  | addImm => exact ⟨_, decode_addImm h, rfl, rfl⟩
  | ldReg => exact ⟨_, decode_ldReg h, rfl, rfl⟩
  | orReg => exact ⟨_, decode_orReg h, rfl, rfl⟩
  | andReg => exact ⟨_, decode_andReg h, rfl, rfl⟩
  | xorReg => exact ⟨_, decode_xorReg h, rfl, rfl⟩
  | addReg => exact ⟨_, decode_addReg h, rfl, rfl⟩
  | sub => exact ⟨_, decode_sub h, rfl, rfl⟩
  | shr => exact ⟨_, decode_shr h, rfl, rfl⟩
  | subn => exact ⟨_, decode_subn h, rfl, rfl⟩
  | shl => exact ⟨_, decode_shl h, rfl, rfl⟩
  | sneReg => exact ⟨_, decode_sneReg h, rfl, rfl⟩
  | ldI => exact ⟨_, decode_ldI h, rfl, rfl⟩
  | jpV0 => exact ⟨_, decode_jpV0 h, rfl, rfl⟩
  | rnd => exact ⟨_, decode_rnd h, rfl, rfl⟩
  | drw => exact ⟨_, decode_drw h, rfl, rfl⟩
  | skp => exact ⟨_, decode_skp h, rfl, rfl⟩
  | sknp => exact ⟨_, decode_sknp h, rfl, rfl⟩
  | ldVxDt => exact ⟨_, decode_ldVxDt h, rfl, rfl⟩
  | ldVxK => exact ⟨_, decode_ldVxK h, rfl, rfl⟩
  | ldDtVx => exact ⟨_, decode_ldDtVx h, rfl, rfl⟩
  | ldStVx => exact ⟨_, decode_ldStVx h, rfl, rfl⟩
  | addI => exact ⟨_, decode_addI h, rfl, rfl⟩
  | ldF => exact ⟨_, decode_ldF h, rfl, rfl⟩
  | ldB => exact ⟨_, decode_ldB h, rfl, rfl⟩
  | ldMemVx => exact ⟨_, decode_ldMemVx h, rfl, rfl⟩
  | ldVxMem => exact ⟨_, decode_ldVxMem h, rfl, rfl⟩

section
variable {op : Word}

theorem fieldG_eq_of_div {k : Nibble} (h : op.toNat / 4096 = k.toNat) : fieldG op = k :=
  BitVec.eq_of_toNat_eq ((fieldG_toNat op).trans h)

theorem fieldN_eq_zero_of_mod (h : op.toNat % 16 = 0) : fieldN op = 0#4 :=
  BitVec.eq_of_toNat_eq ((fieldN_toNat op).trans h)

/-- With DECODE_5_9_STRICT a non-zero bottom nibble of groups 5 and 9 is UNDEFINED. -/
theorem decodeGroup59_true_of_mod {u : UndefinedGroup} {i : Instr} (h : op.toNat % 16 ≠ 0) :
    decodeGroup59 true u i op = .undefined u := by
  have hn : fieldN op ≠ 0#4 := fun h0 => h (by rw [← fieldN_toNat, h0]; rfl)
  simp [decodeGroup59, hn]

/-- The parameter reaches the decoder through groups 5 and 9 only. -/
theorem decode_strict_irrelevant (h : (op.toNat / 4096 ≠ 5 ∧ op.toNat / 4096 ≠ 9) ∨ op.toNat % 16 = 0) :
    decode false op = decode true op := by
  rw [← fieldG_toNat] at h
  unfold decode
  split
  case h_6 | h_10 =>
    have hn : fieldN op = 0#4 := fieldN_eq_zero_of_mod (by omega)
    rw [decodeGroup59_of_fieldN_zero hn, decodeGroup59_of_fieldN_zero hn]
  all_goals rfl

end

/-- Settles O6: groups 5 and 9 by their own rule, and no other group reads the parameter. -/
theorem strictParameterReachesGroups5And9Only : Obligations.StrictParameterReachesGroups5And9Only := by
  refine ⟨fun op hg => ⟨fun hn => ?_, ?_⟩, fun op hg => ⟨fun hn => ?_, ?_⟩, fun _ => decode_strict_irrelevant⟩
  · exact (decode_group5 (fieldG_eq_of_div hg)).trans (decodeGroup59_true_of_mod hn)
  · exact (decode_group5 (fieldG_eq_of_div hg)).trans decodeGroup59_false
  · exact (decode_group9 (fieldG_eq_of_div hg)).trans (decodeGroup59_true_of_mod hn)
  · exact (decode_group9 (fieldG_eq_of_div hg)).trans decodeGroup59_false

/-- Settles O1: the decoder evaluates on each of the ten words. -/
theorem knownWordsDecode : Obligations.KnownWordsDecode :=
  ⟨rfl, rfl, rfl, rfl, rfl, rfl, rfl, rfl, rfl, rfl⟩

end Sys2Proof
end

section
/-! PROOFS. What an instruction can do: complete, with the frame and the PC move of its rule, wait for a key, or enter a listed
fault (40_fetch_cycle.md R90, R96; 60_exceptions.md R216 to R218). With it the faults of exec, the totality of the core, and the
writers of every other piece of state (10_state.md). -/

namespace Sys2Proof.Machine

/-! ### Fault entry (R215, R237) -/

/-- The addresses that fault entry records with a code: one outside memory for an address fault, 0 for a stack fault. -/
def FaultCode.Names : FaultCode → Nat → Prop
  | .noFault, _ => False
  | .addrFetch, addr | .addrRead, addr | .addrWrite, addr => Config.memSize ≤ addr ∧ addr < 65536
  | .stackOverflow, addr | .stackUnderflow, addr => addr = 0

theorem FaultCode.Names.lt {code : FaultCode} {addr : Nat} (h : code.Names addr) : addr < 65536 := by
  cases code with
  | noFault => exact h.elim
  | addrFetch | addrRead | addrWrite => exact h.2
  | stackOverflow | stackUnderflow => exact h ▸ by decide

theorem FaultCode.Names.ne_noFault {code : FaultCode} {addr : Nat} (h : code.Names addr) : code ≠ .noFault := by
  rintro rfl
  exact h

/-- The lowest illegal address of an access at a 16-bit address is outside memory and fits in fault_addr. -/
theorem lowestIllegal_bounds (w : Word) :
    Config.memSize ≤ lowestIllegal w.toNat ∧ lowestIllegal w.toNat < 65536 :=
  ⟨le_max_right _ _, max_lt w.isLt (by decide)⟩

/-! ### Completion: frames and PC moves -/

/-- What an instruction that completes may have changed, by its rule. -/
def CompletionFrame : Instr → State → State → Prop
  | .sys _, s, t | .jp _, s, t | .jpV0 _, s, t | .seImm _ _, s, t | .sneImm _ _, s, t | .seReg _ _, s, t
  | .sneReg _ _, s, t => OnlyPc s t
  | .ldImm _ _, s, t | .addImm _ _, s, t | .ldReg _ _, s, t | .orReg _ _, s, t | .andReg _ _, s, t
  | .xorReg _ _, s, t | .addReg _ _, s, t | .sub _ _, s, t | .shr _ _, s, t | .subn _ _, s, t | .shl _ _, s, t
  | .ldVxDt _, s, t | .ldVxMem _, s, t => OnlyRegsPc s t
  | .ret, s, t => t = { s with sp := t.sp, pc := t.pc }
  | .call _, s, t => t = { s with stack := t.stack, sp := t.sp, pc := t.pc }
  | .cls, s, t => t = { s with disp := t.disp, pc := t.pc }
  | .drw _ _ _, s, t => t = { s with v := t.v, disp := t.disp, pc := t.pc }
  | .rnd _ _, s, t => t = { s with v := t.v, pc := t.pc, rng := t.rng }
  | .skp _, s, t | .sknp _, s, t => t = { s with keySlot := t.keySlot, pc := t.pc }
  | .ldVxK _, s, t => t = { s with v := t.v, keySlot := t.keySlot, pc := t.pc }
  | .ldDtVx _, s, t => t = { s with dt := t.dt, pc := t.pc }
  | .ldStVx _, s, t => t = { s with st := t.st, pc := t.pc }
  | .ldI _, s, t | .addI _, s, t | .ldF _, s, t => t = { s with i := t.i, pc := t.pc }
  | .ldB _, s, t | .ldMemVx _, s, t => t = { s with mem := t.mem, pc := t.pc }

/-- The PC classes of R96. -/
def PcMoves (i : Instr) (s t : State) : Prop := PcBy s t 2 ∨ (skips i ∧ PcBy s t 4) ∨ setsPc i

theorem State.skipIf_pcBy_cases (s : State) (c : Bool) : PcBy s (s.skipIf c) 2 ∨ PcBy s (s.skipIf c) 4 := by
  cases c with
  | false => exact .inl s.advance_pcBy
  | true => exact .inr (s.skipIf_pcBy true)

theorem State.skipIf_memWf {s : State} (h : s.memWf) (c : Bool) : (s.skipIf c).memWf := by
  rw [State.skipIf_eq]
  exact h

/-! ### The outcomes of an instruction -/

/-- What `exec i s` can answer. -/
inductive ExecOutcome (i : Instr) (s : State) : State → Prop where
  /-- The instruction completes. -/
  | completes {t : State} (frame : CompletionFrame i s t) (moves : PcMoves i s t) (memory : s.memWf → t.memWf) :
      ExecOutcome i s t
  /-- Fx0A finds no key and waits (R198). -/
  | waits {x : Reg} (instr : i = .ldVxK x) (empty : s.keySlot = none) : ExecOutcome i s (s.keyTake.2.beginWait x)
  /-- The instruction enters FAULT (R218). -/
  | faults {code : FaultCode} {addr : Nat} (listed : mayRaise i code) (names : code.Names addr) :
      ExecOutcome i s (s.raiseFault code addr)

/-- A checked access at I has the outcome of its effect, or raises its address fault. -/
theorem ExecOutcome.checkedAccess {i : Instr} {s t : State} {code : FaultCode} (len : Nat) (h : ExecOutcome i s t)
    (listed : mayRaise i code)
    (names : ∀ addr, Config.memSize ≤ addr ∧ addr < 65536 → code.Names addr) :
    ExecOutcome i s (s.checkedAccess code s.base len t) := by
  obtain ⟨-, heq⟩ | ⟨-, heq⟩ := s.checkedAccess_cases t code s.base len <;> rw [heq]
  · exact h
  · exact .faults listed (names _ (lowestIllegal_bounds s.i))

/-- Every instruction in every state answers a next state, with one of the three outcomes. -/
theorem exec_outcome (i : Instr) (s : State) : ∃ t, exec i s = .next t ∧ ExecOutcome i s t := by
  cases i with
  | jp | jpV0 => exact ⟨_, rfl, .completes rfl (.inr (.inr trivial)) id⟩
  | sys | cls | ldI | addI | ldF | ldDtVx | ldStVx => exact ⟨_, rfl, .completes rfl (.inl s.advance_pcBy) id⟩
  | ldImm | addImm | ldReg | orReg | andReg | xorReg | addReg | sub | shr | subn | shl | rnd | ldVxDt =>
    exact ⟨_, rfl, .completes rfl (.inl s.advance_pcBy) id⟩
  | seImm | sneImm | seReg | sneReg =>
    refine ⟨_, rfl, .completes (s.skipIf_frame _).1 ?_ (State.skipIf_memWf · _)⟩
    exact (s.skipIf_pcBy_cases _).imp_right fun h => .inl ⟨trivial, h⟩
  | skp | sknp =>
    refine ⟨_, rfl, .completes ?_ ?_ fun h => State.skipIf_memWf (s := s.keyTake.2) h _⟩
    · rw [State.skipIf_eq]
      rfl
    · exact (s.keyTake.2.skipIf_pcBy_cases _).imp_right fun h => .inl ⟨trivial, h⟩
  | ret =>
    obtain ⟨_, heq⟩ | ⟨-, heq⟩ := exec_ret_cases s
    · exact ⟨_, heq, .completes rfl (.inr (.inr trivial)) id⟩
    · exact ⟨_, heq, .faults rfl rfl⟩
  | call nnn =>
    obtain ⟨_, heq⟩ | ⟨-, heq⟩ := exec_call_cases nnn s
    · exact ⟨_, heq, .completes rfl (.inr (.inr trivial)) id⟩
    · exact ⟨_, heq, .faults rfl rfl⟩
  | ldVxK x =>
    obtain ⟨k, -, heq⟩ | ⟨hk, heq⟩ := exec_ldVxK_cases x s
    · exact ⟨_, heq, .completes rfl (.inl s.advance_pcBy) id⟩
    · exact ⟨_, heq, .waits rfl hk⟩
  | drw =>
    exact ⟨_, rfl, .checkedAccess _ (.completes rfl (.inl s.advance_pcBy) id) rfl fun _ => id⟩
  | ldVxMem =>
    refine ⟨_, rfl, .checkedAccess _ ?_ rfl fun _ => id⟩
    obtain ⟨hpc, honly, -⟩ := s.loadRegs_advance_frame 0 (s.readBytes s.base _)
    exact .completes honly (.inl hpc) fun h => by rw [State.loadRegs_eq]; exact h
  | ldB | ldMemVx =>
    refine ⟨_, rfl, .checkedAccess _ ?_ rfl fun _ => id⟩
    obtain ⟨hpc, honly⟩ := s.writeBytes_advance_frame s.base _
    exact .completes honly (.inl hpc) fun h => State.writeBytes_memWf h s.base _

/-- The inversion of `exec`. -/
theorem ExecOutcome.of_exec {i : Instr} {s t : State} (h : exec i s = .next t) : ExecOutcome i s t := by
  obtain ⟨_, heq, ho⟩ := exec_outcome i s
  cases heq.symm.trans h
  exact ho

/-! ### What every completion leaves -/

/-- Nothing differs but the registers, the stack, the timers, the display, memory, the generator and the key slot. -/
def OnlyProgramState (s t : State) : Prop :=
  t = { s with
        v := t.v, i := t.i, pc := t.pc, sp := t.sp, stack := t.stack, dt := t.dt, st := t.st, disp := t.disp
        mem := t.mem, rng := t.rng, keySlot := t.keySlot }

theorem CompletionFrame.onlyProgramState {i : Instr} {s t : State} (h : CompletionFrame i s t) :
    OnlyProgramState s t := by
  unfold OnlyProgramState
  cases i <;> rw [h]

theorem OnlyProgramState.runState {s t : State} (h : OnlyProgramState s t) : t.runState = s.runState := by rw [h]

/-- Settles O26: an instruction outside FAULT ends in FAULT by its fault outcome only. -/
theorem execFaultsAreListedAndPrecise : Obligations.ExecFaultsAreListedAndPrecise := by
  intro i s t h hs ht
  cases ExecOutcome.of_exec h with
  | completes frame => exact absurd (frame.onlyProgramState.runState.symm.trans ht) hs
  | waits => cases ht
  | faults listed names => exact ⟨_, _, listed, s.raiseFault_entersFault _ names.lt⟩

/-! ### Totality -/

theorem mapNext_total {f : State → State} {r : Result} (h : ∃ t, r = .next t) : ∃ t, mapNext f r = .next t := by
  obtain ⟨t, rfl⟩ := h
  exact ⟨f t, rfl⟩

theorem execDecoded_total (d : Decoded) (s : State) : ∃ t, execDecoded d s = .next t := by
  cases d with
  | instr i => exact (exec_outcome i s).imp fun _ => And.left
  | undefined => exact ⟨_, rfl⟩

theorem State.runInstruction_total (s : State) : ∃ t, s.runInstruction = .next t := by
  obtain ⟨-, heq⟩ | ⟨_, -, -, heq⟩ := s.runInstruction_cases <;> rw [heq]
  · exact ⟨_, rfl⟩
  · exact mapNext_total (execDecoded_total _ s)

theorem State.tick_total (s : State) (now : Millis) : ∃ t, s.tick now = .next t := by
  obtain ⟨-, heq⟩ | ⟨-, heq⟩ | ⟨-, -, heq⟩ | ⟨-, -, heq⟩ := s.tick_cases now <;> rw [heq]
  case inr.inr.inr => exact State.runInstruction_total _
  all_goals exact ⟨_, rfl⟩

theorem State.hostMove_total (s : State) (e : HostEvent) : ∃ t, s.hostMove e = .next t := by
  cases e with
  | tick now => exact (s.setHostClock now).tick_total now
  | reset | loadRom | keyPress => exact ⟨_, rfl⟩

/-- Settles O29: every move of the host and every instruction answers a next state. -/
theorem coreAlwaysAnswersNext : Obligations.CoreAlwaysAnswersNext := by
  refine ⟨fun s => ?_, fun i s => (exec_outcome i s).imp fun _ => And.left⟩
  obtain ⟨e, q, -, heq⟩ | ⟨-, heq⟩ := step_cases s <;> rw [heq]
  · exact State.hostMove_total _ e
  · exact State.tick_total _ _

/-! ### The writers of every other piece of state -/

/-- Settles O31: a completion changes what its frame names, a wait wait_x and run_state, a fault the record and `playing`. -/
theorem stateHasItsListedWriters : Obligations.StateHasItsListedWriters := by
  intro i s t h
  cases ExecOutcome.of_exec h with
  | faults listed => simp [listed]
  | waits instr empty => simp [instr, empty]
  | completes frame moves =>
    -- A frame leaves a field, or the instruction is a listed writer of it; PC's clause is `moves`.
    have hpc : t.pc ≠ s.pc → PcMoves i s t := fun _ => moves
    revert hpc
    unfold PcMoves
    cases i <;> rw [frame] <;> simp

end Sys2Proof.Machine
end

section
/-! PROOFS. The invariant (70_reset_and_hazards.md, 60_exceptions.md): the outcomes of a granted tick, the clauses that hold outside
FAULT, kept by each operation of a tick, and the moves of the host. With it power-on, reset and every step. -/

namespace Sys2Proof.Machine

/-! ### The outcomes of a granted tick (R90, R97) -/

theorem mapNext_eq_next {f : State → State} {r : Result} {t : State} (h : mapNext f r = .next t) :
    ∃ w, r = .next w ∧ t = f w := by
  cases r with
  | next w => exact ⟨w, rfl, Host.Outcome.next.inj h.symm⟩
  | fault | refused => cases h

/-- What a granted tick in RUN can answer. -/
inductive RunOutcome (s : State) : State → Prop where
  /-- The instruction, UNDEFINED or not, completes and is counted. -/
  | completes {w : State} (frame : OnlyProgramState s w) (memory : s.memWf → w.memWf) :
      RunOutcome s w.completeInstruction
  /-- Fx0A waits at its own opcode. -/
  | waits {x : Reg} (inMemory : s.pc.toNat + 1 < Config.memSize) : RunOutcome s (s.keyTake.2.beginWait x)
  /-- The fetch or the instruction enters FAULT. -/
  | faults {code : FaultCode} {addr : Nat} (names : code.Names addr) : RunOutcome s (s.raiseFault code addr)

/-- In RUN a completed instruction is counted. -/
theorem RunOutcome.afterExecute_of_frame {s w : State} (hrun : s.runState = .run) (frame : OnlyProgramState s w)
    (memory : s.memWf → w.memWf) : RunOutcome s w.afterExecute := by
  rw [State.afterExecute_of_run (frame.runState.trans hrun)]
  exact .completes frame memory

theorem State.afterExecute_of_ne_run {s : State} (h : s.runState ≠ .run) : s.afterExecute = s := if_neg h

theorem RunOutcome.of_runInstruction {s t : State} (hrun : s.runState = .run) (h : s.runInstruction = .next t) :
    RunOutcome s t := by
  obtain ⟨-, heq⟩ | ⟨op, -, hpc, heq⟩ := s.runInstruction_cases
  · cases heq.symm.trans h
    exact .faults (lowestIllegal_bounds s.pc)
  · obtain ⟨w, hexec, rfl⟩ := mapNext_eq_next (heq.symm.trans h)
    cases hd : decode s.params.decode59Strict op with
    | undefined =>
      rw [hd] at hexec
      cases hexec
      exact .afterExecute_of_frame hrun rfl id
    | instr i =>
      rw [hd] at hexec
      cases ExecOutcome.of_exec hexec with
      | completes frame _ memory => exact .afterExecute_of_frame hrun frame.onlyProgramState memory
      | waits =>
        rw [State.afterExecute_of_ne_run]
        · exact .waits hpc
        · nofun
      | faults _ names =>
        rw [State.afterExecute_of_ne_run]
        · exact .faults names
        · nofun

/-! ### The clauses of a machine that runs or waits -/

/-- The invariant of a machine out of IDLE and FAULT, but for the run state and the place of a key wait. -/
structure State.Active (s : State) : Prop where
  memory : s.memWf
  governor : s.governorBounded
  cadence : s.cadenceInRange
  code : s.faultCode = .noFault
  faultPc : s.faultPc = 0
  faultAddr : s.faultAddr = 0
  loaded : s.loadFailed = false

/-- Outside FAULT the fault record says no fault. -/
theorem State.Inv.noFault {s : State} (h : s.Inv) (hne : s.runState ≠ .fault) :
    s.faultCode = .noFault ∧ s.faultPc = 0 ∧ s.faultAddr = 0 := by
  obtain ⟨hiff, -, hrec⟩ := h.faults
  have hcode : s.faultCode = .noFault := of_not_not (mt hiff.2 hne)
  rw [hcode] at hrec
  exact ⟨hcode, hrec⟩

/-- The fault record of a machine outside FAULT. -/
theorem State.faultRecorded_of_noFault {s : State} (hne : s.runState ≠ .fault) (hcode : s.faultCode = .noFault)
    (hpc : s.faultPc = 0) (haddr : s.faultAddr = 0) : s.faultRecorded := by
  refine ⟨iff_of_false hne (not_not.2 hcode), fun h => absurd h hne, ?_⟩
  rw [hcode]
  exact ⟨hpc, haddr⟩

theorem State.Inv.active {s : State} (h : s.Inv) (hidle : s.runState ≠ .idle) (hfault : s.runState ≠ .fault) :
    s.Active := by
  obtain ⟨hcode, hpc, haddr⟩ := h.noFault hfault
  exact ⟨h.memory, h.governor, h.cadence, hcode, hpc, haddr, Bool.eq_false_iff.2 (mt h.load hidle)⟩

section
variable {s t : State}

theorem State.Active.inv_of_run (h : s.Active) (hrun : s.runState = .run) : s.Inv where
  memory := h.memory
  governor := h.governor
  cadence := h.cadence
  faults := State.faultRecorded_of_noFault (by simp [hrun]) h.code h.faultPc h.faultAddr
  waits := by simp [State.waitsAtInstruction, hrun]
  idle := by simp [State.idleAsReset, hrun]
  load := by simp [State.failedLoadIdle, h.loaded]

theorem State.Active.inv_of_waitKey (h : s.Active) (hwait : s.runState = .waitKey)
    (hpc : s.pc.toNat + 1 < Config.memSize) : s.Inv where
  memory := h.memory
  governor := h.governor
  cadence := h.cadence
  faults := State.faultRecorded_of_noFault (by simp [hwait]) h.code h.faultPc h.faultAddr
  waits := fun _ => hpc
  idle := by simp [State.idleAsReset, hwait]
  load := by simp [State.failedLoadIdle, h.loaded]

/-- Fault entry with an address that its code names makes the record agree with FAULT (R216). -/
theorem State.raiseFault_faultRecorded (s : State) {code : FaultCode} {addr : Nat} (names : code.Names addr) :
    (s.raiseFault code addr).faultRecorded := by
  refine ⟨iff_of_true rfl names.ne_noFault, fun _ => ⟨rfl, rfl⟩, ?_⟩
  cases code with
  | noFault => exact names.elim
  | addrFetch | addrRead | addrWrite =>
    obtain ⟨hge, hlt⟩ := names
    show Config.memSize ≤ (BitVec.ofNat 16 addr).toNat
    rwa [BitVec.toNat_ofNat, Nat.mod_eq_of_lt hlt]
  | stackOverflow | stackUnderflow =>
    cases names
    rfl

theorem State.Active.inv_raiseFault (h : s.Active) {code : FaultCode} {addr : Nat} (names : code.Names addr) :
    (s.raiseFault code addr).Inv where
  memory := h.memory
  governor := h.governor
  cadence := h.cadence
  faults := s.raiseFault_faultRecorded names
  waits := nofun
  idle := nofun
  load := by simp [State.failedLoadIdle, h.loaded]

/-! ### What keeps the clauses -/

theorem State.Active.of_onlyProgramState (h : s.Active) (frame : OnlyProgramState s t) (hmem : t.memWf) : t.Active := by
  rw [frame] at hmem ⊢
  exact { h with memory := hmem }

/-- A completion leaves tc below TIMER_DIVIDER, whatever it was (R97). -/
theorem State.Active.completeInstruction (h : s.Active) : s.completeInstruction.Active := by
  rw [State.completeInstruction_eq]
  exact { h with cadence := s.bumpCadence_tc_lt }

/-- A refill is not negative, and the cap of R261 bounds it. -/
theorem State.refilled_bounds (h : s.governorBounded) (now : Millis) :
    0 ≤ s.refilled now ∧ s.refilled now ≤ (s.params.govRate : Rat) := by
  obtain ⟨hnonneg, -⟩ := h
  rw [State.refilled_eq]
  exact ⟨by positivity, min_le_left _ _⟩

/-- A consult keeps the allowance in [0, GOV_RATE] (R262). -/
theorem State.governorConsult_bounded (h : s.governorBounded) (now : Millis) :
    (s.governorConsult now).2.governorBounded := by
  obtain ⟨hlow, hhigh⟩ := State.refilled_bounds h now
  obtain ⟨hge, heq⟩ | ⟨-, heq⟩ := s.governorConsult_cases now <;> rw [heq]
  · exact ⟨sub_nonneg.2 hge, (sub_le_self _ zero_le_one).trans hhigh⟩
  · exact ⟨hlow, hhigh⟩

theorem State.Active.governorConsult (h : s.Active) (now : Millis) : (s.governorConsult now).2.Active := by
  have hbounded := State.governorConsult_bounded h.governor now
  rw [State.governorConsult_eq_setGovernor] at hbounded ⊢
  exact { h with governor := hbounded }

theorem State.governorConsult_runState (s : State) (now : Millis) :
    (s.governorConsult now).2.runState = s.runState := by
  rw [State.governorConsult_eq_setGovernor, State.setGovernor_runState]

theorem State.completeInstruction_runState (s : State) : s.completeInstruction.runState = s.runState := by
  rw [State.completeInstruction_eq]

theorem RunOutcome.inv (h : RunOutcome s t) (hact : s.Active) (hrun : s.runState = .run) : t.Inv := by
  cases h with
  | completes frame memory =>
    refine ((hact.of_onlyProgramState frame (memory hact.memory)).completeInstruction).inv_of_run ?_
    rw [State.completeInstruction_runState, frame.runState, hrun]
  | waits inMemory => exact State.Active.inv_of_waitKey { hact with } rfl inMemory
  | faults names => exact hact.inv_raiseFault names

end

/-! ### The moves of the host -/

section
variable {s : State}

/-- The model's own host fields are in no clause but that of IDLE, which leaves them out (log entries 2 and 3). -/
theorem State.Inv.setHostClock (h : s.Inv) (now : Millis) : (s.setHostClock now).Inv where
  memory := h.memory
  governor := h.governor
  cadence := h.cadence
  faults := h.faults
  waits := h.waits
  idle := fun hidle => congrArg (State.setHostClock · now) (h.idle hidle)
  load := h.load

theorem State.Inv.setHostQueue (h : s.Inv) (q : List HostEvent) : (s.setHostQueue q).Inv where
  memory := h.memory
  governor := h.governor
  cadence := h.cadence
  faults := h.faults
  waits := h.waits
  idle := fun hidle => congrArg (State.setHostQueue · q) (h.idle hidle)
  load := h.load

theorem State.Inv.hostKeyPress (h : s.Inv) (k : Nibble) : (s.hostKeyPress k).Inv where
  memory := h.memory
  governor := h.governor
  cadence := h.cadence
  faults := h.faults
  waits := h.waits
  idle := fun hidle => congrArg (State.hostKeyPress · k) (h.idle hidle)
  load := h.load

/-- A reset meets the invariant from any state (R250). -/
theorem State.hostReset_inv (s : State) (now : Millis) : (s.hostReset now).Inv where
  memory := rfl
  governor := by
    show 0 ≤ mkRat s.params.govRate 1 ∧ mkRat s.params.govRate 1 ≤ _
    rw [ratNat_eq]
    exact ⟨Nat.cast_nonneg _, le_rfl⟩
  cadence := s.params.timerDivider.property
  faults := State.faultRecorded_of_noFault nofun rfl rfl rfl
  waits := nofun
  idle := fun _ => rfl
  load := nofun

/-- All that a load can do (R253, R254). -/
theorem State.hostLoadRom_cases (s : State) (bytes : List Byte) :
    (s.runState ≠ .idle ∧ s.hostLoadRom bytes = s) ∨
      (s.runState = .idle ∧ Config.maxRom < bytes.length ∧ s.hostLoadRom bytes = s.endLoad .idle true) ∨
      (s.runState = .idle ∧ bytes.length ≤ Config.maxRom ∧
        s.hostLoadRom bytes = (s.writeBytes Config.romBase bytes).endLoad .run false) := by
  unfold State.hostLoadRom
  cases h : s.runState with
  | run | waitKey | fault => exact .inl ⟨nofun, rfl⟩
  | idle =>
    by_cases hlen : Config.maxRom < bytes.length
    · exact .inr (.inl ⟨rfl, hlen, if_pos hlen⟩)
    · exact .inr (.inr ⟨rfl, Nat.le_of_not_lt hlen, if_neg hlen⟩)

/-- A reported load changes the report only, which the clause of IDLE leaves out. -/
theorem State.Inv.endLoad_failed (h : s.Inv) (hidle : s.runState = .idle) : (s.endLoad .idle true).Inv where
  memory := h.memory
  governor := h.governor
  cadence := h.cadence
  faults := by
    obtain ⟨hcode, hpc, haddr⟩ := h.noFault (by simp [hidle])
    exact State.faultRecorded_of_noFault nofun hcode hpc haddr
  waits := nofun
  idle := fun _ => congrArg (State.endLoad · .idle true) (h.idle hidle)
  load := fun _ => rfl

/-- A copied load starts the core with a clean record. -/
theorem State.Inv.endLoad_copied (h : s.Inv) (hidle : s.runState = .idle) (bytes : List Byte) :
    ((s.writeBytes Config.romBase bytes).endLoad .run false).Inv := by
  obtain ⟨hcode, hpc, haddr⟩ := h.noFault (by simp [hidle])
  have hmem : (s.writeBytes Config.romBase bytes).memWf := State.writeBytes_memWf h.memory _ _
  rw [State.writeBytes_eq_setMem] at hmem ⊢
  exact State.Active.inv_of_run ⟨hmem, h.governor, h.cadence, hcode, hpc, haddr, rfl⟩ rfl

theorem State.Inv.hostLoadRom (h : s.Inv) (bytes : List Byte) : (s.hostLoadRom bytes).Inv := by
  obtain ⟨-, heq⟩ | ⟨hidle, -, heq⟩ | ⟨hidle, -, heq⟩ := s.hostLoadRom_cases bytes <;> rw [heq]
  · exact h
  · exact h.endLoad_failed hidle
  · exact h.endLoad_copied hidle bytes

/-- A poll completes the waiting Fx0A, or goes on waiting at it (R199). -/
theorem State.Inv.pollKey (h : s.Inv) (hwait : s.runState = .waitKey) : s.pollKey.Inv := by
  have hact := h.active (by simp [hwait]) (by simp [hwait])
  obtain ⟨k, -, heq⟩ | ⟨-, heq⟩ := s.pollKey_cases <;> rw [heq]
  · have hdelivered : (s.keyTake.2.deliverKey s.waitX k).resume.Active := { hact with }
    exact hdelivered.completeInstruction.inv_of_run (State.completeInstruction_runState _)
  · exact State.Active.inv_of_waitKey { hact with } hwait (h.waits hwait)

theorem State.Inv.tick {t : State} (h : s.Inv) {now : Millis} (ht : s.tick now = .next t) : t.Inv := by
  obtain ⟨-, heq⟩ | ⟨hwait, heq⟩ | ⟨hrun, -, heq⟩ | ⟨hrun, -, heq⟩ := s.tick_cases now
  · cases heq.symm.trans ht
    exact h
  · cases heq.symm.trans ht
    exact h.pollKey hwait
  all_goals
    have hact := (h.active (by simp [hrun]) (by simp [hrun])).governorConsult now
    have hrun' := (s.governorConsult_runState now).trans hrun
  · cases heq.symm.trans ht
    exact hact.inv_of_run hrun'
  · exact (RunOutcome.of_runInstruction hrun' (heq.symm.trans ht)).inv hact hrun'

theorem State.Inv.hostMove {t : State} (h : s.Inv) {e : HostEvent} (ht : s.hostMove e = .next t) : t.Inv := by
  cases e with
  | reset now => cases ht; exact s.hostReset_inv now
  | loadRom bytes => cases ht; exact h.hostLoadRom bytes
  | keyPress k => cases ht; exact h.hostKeyPress k
  | tick now => exact (h.setHostClock now).tick ht

end

/-- Settles O59: every step is one move of the host, and each move keeps the invariant. -/
theorem stepKeepsInvariant : Obligations.StepKeepsInvariant := by
  intro s t h ht
  obtain ⟨e, q, -, heq⟩ | ⟨-, heq⟩ := step_cases s
  · exact (h.setHostQueue q).hostMove (heq.symm.trans ht)
  · exact (h.setHostClock _).tick (heq.symm.trans ht)

/-- Settles O22: each conjunct is an evaluation of the power-on state. -/
theorem powerOnIsReset : Obligations.PowerOnIsReset :=
  ⟨by decide, rfl, rfl, rfl, rfl, rfl, by decide, by decide⟩

/-- Settles O58: power-on is a reset, and every reset meets the invariant. -/
theorem resetMeetsInvariant : Obligations.ResetMeetsInvariant := by
  obtain ⟨hreset, -⟩ := powerOnIsReset
  show State.reset.Inv
  rw [hreset]
  exact State.hostReset_inv _ 0

end Sys2Proof.Machine
end

section
/-! PROOFS. FAULT and the ticks (60_exceptions.md sections 1 and 4, 40_fetch_cycle.md): how a step enters FAULT and how it leaves it,
the fetch, and the tick in each run state. -/

namespace Sys2Proof.Machine

/-! ### Entering FAULT (R217) -/

/-- `t` is `s` after fault entry, the governor's fields and the model's host fields aside. -/
def FaultsFrom (s t : State) : Prop :=
  ∃ code addr u, code ≠ .noFault ∧ t = State.raiseFault u code addr ∧
    u = { s with
          allowance := u.allowance, lastCheck := u.lastCheck, hostQueue := u.hostQueue, hostClock := u.hostClock }

theorem FaultsFrom.of_setHostClock {s t : State} {now : Millis} (h : FaultsFrom (s.setHostClock now) t) :
    FaultsFrom s t := h

theorem FaultsFrom.of_setHostQueue {s t : State} {q : List HostEvent} (h : FaultsFrom (s.setHostQueue q) t) :
    FaultsFrom s t := h

theorem State.pollKey_runState_ne_fault {s : State} (h : s.runState = .waitKey) : s.pollKey.runState ≠ .fault := by
  obtain ⟨k, -, heq⟩ | ⟨-, heq⟩ := s.pollKey_cases <;> rw [heq]
  · rw [State.completeInstruction_runState]
    nofun
  · rw [State.keyTake_snd_runState, h]
    nofun

/-- A tick enters FAULT only when it is granted, and then by a fault of the fetch or of the instruction. -/
theorem FaultsFrom.of_tick {s t : State} {now : Millis} (h : s.tick now = .next t) (hs : s.runState ≠ .fault)
    (ht : t.runState = .fault) : FaultsFrom s t := by
  obtain ⟨-, heq⟩ | ⟨hwait, heq⟩ | ⟨-, -, heq⟩ | ⟨hrun, -, heq⟩ := s.tick_cases now
  · cases heq.symm.trans h
    exact absurd ht hs
  · cases heq.symm.trans h
    exact absurd ht (State.pollKey_runState_ne_fault hwait)
  · cases heq.symm.trans h
    exact absurd ((s.governorConsult_runState now).symm.trans ht) hs
  · have hrun' := (s.governorConsult_runState now).trans hrun
    cases RunOutcome.of_runInstruction hrun' (heq.symm.trans h) with
    | completes frame =>
      rw [State.completeInstruction_runState, frame.runState, hrun'] at ht
      cases ht
    | waits => cases ht
    | faults names =>
      refine ⟨_, _, _, names.ne_noFault, rfl, ?_⟩
      rw [State.governorConsult_eq_setGovernor]
      rfl

/-- No move of the host but a tick enters FAULT. -/
theorem FaultsFrom.of_hostMove {s t : State} {e : HostEvent} (h : s.hostMove e = .next t) (hs : s.runState ≠ .fault)
    (ht : t.runState = .fault) : FaultsFrom s t := by
  cases e with
  | reset => cases h; cases ht
  | keyPress => cases h; exact absurd ht hs
  | loadRom bytes =>
    cases h
    obtain ⟨-, heq⟩ | ⟨-, -, heq⟩ | ⟨-, -, heq⟩ := s.hostLoadRom_cases bytes <;> rw [heq] at ht
    · exact absurd ht hs
    · cases ht
    · cases ht
  | tick now => exact (FaultsFrom.of_tick h hs ht).of_setHostClock

/-- Settles O27: the move is a tick, and its fault is fault entry on the consulted state. -/
theorem faultingStepIsPrecise : Obligations.FaultingStepIsPrecise := by
  intro s t h hs ht
  have hfault : FaultsFrom s t := by
    obtain ⟨e, q, -, heq⟩ | ⟨-, heq⟩ := step_cases s
    · exact (FaultsFrom.of_hostMove (heq.symm.trans h) hs ht).of_setHostQueue
    · exact (FaultsFrom.of_tick (heq.symm.trans h) hs ht).of_setHostClock
  obtain ⟨code, addr, u, hcode, rfl, hu⟩ := hfault
  rw [hu]
  exact ⟨rfl, rfl, hcode, rfl⟩

/-- Settles O25: fault entry by its own lemma, the codes by evaluation. -/
theorem faultEntryRecords : Obligations.FaultEntryRecords :=
  ⟨fun s code _ h => s.raiseFault_entersFault code h, fun _ _ => ⟨rfl, rfl, rfl, rfl, rfl⟩⟩

/-! ### Ticks in IDLE and in FAULT (R99, R220) -/

theorem State.tick_of_idle_or_fault {s : State} (h : s.runState = .idle ∨ s.runState = .fault) (now : Millis) :
    s.tick now = .next s := by
  obtain h | h := h <;> simp [State.tick, h]

/-- Settles O12: the tick answers the state in which it was taken up. -/
theorem idleAndFaultTicksChangeNothing : Obligations.IdleAndFaultTicksChangeNothing := by
  intro s u now h hrun
  rw [step_of_tickComes h, State.tick_of_idle_or_fault (by rwa [h.runState]), ← h.eq]

theorem State.hostLoadRom_of_ne_idle {s : State} (h : s.runState ≠ .idle) (bytes : List Byte) :
    s.hostLoadRom bytes = s := by
  obtain ⟨-, heq⟩ | ⟨hidle, -⟩ | ⟨hidle, -⟩ := s.hostLoadRom_cases bytes
  · exact heq
  · exact absurd hidle h
  · exact absurd hidle h

/-- Settles O28: in FAULT a load and a tick change nothing, a press only the key slot, and a reset goes to IDLE. -/
theorem onlyResetLeavesFault : Obligations.OnlyResetLeavesFault := by
  intro s t hs ht
  obtain ⟨e, q, hq, heq⟩ | ⟨-, heq⟩ := step_cases s <;> rw [heq] at ht
  · cases e with
    | reset now => cases ht; exact .inr ⟨rfl, now, q, hq⟩
    | keyPress k => cases ht; exact .inl ⟨hs, rfl, fun _ => ⟨k, q, hq⟩⟩
    | loadRom bytes =>
      have hidle : (s.setHostQueue q).runState ≠ .idle := by simp [hs]
      cases ht
      rw [State.hostLoadRom_of_ne_idle hidle]
      exact .inl ⟨hs, rfl, fun hne => absurd rfl hne⟩
    | tick now =>
      cases (State.tick_of_idle_or_fault (s := (s.setHostQueue q).setHostClock now) (.inr hs) now).symm.trans ht
      exact .inl ⟨hs, rfl, fun hne => absurd rfl hne⟩
  · cases (State.tick_of_idle_or_fault (s := s.setHostClock s.nextTick) (.inr hs) s.nextTick).symm.trans ht
    exact .inl ⟨hs, rfl, fun hne => absurd rfl hne⟩

/-! ### The fetch and its fault (R92, R93) -/

/-- The lowest illegal address of a fetch at a high PC: PC itself, or 0x1000 for PC = 0xFFF. -/
theorem lowestIllegal_of_highPc {pc : Nat} (h : 0xFFF ≤ pc) :
    lowestIllegal pc = if 0x1000 ≤ pc then pc else 0x1000 := by
  show max pc 4096 = _
  split <;> omega

/-- Settles O9: the opcode of the two bytes, high byte first, or the lowest illegal address. -/
theorem fetchIsBigEndian : Obligations.FetchIsBigEndian := by
  refine fun s => ⟨fun h => ⟨_, State.fetch_of_lt (Nat.succ_lt_succ h), ?_⟩, fun h => ?_⟩
  · rw [opcodeOfBytes_toNat, Nat.mul_comm]
  · rw [State.highPcFetchFaults s h, ← lowestIllegal_of_highPc h]
    rfl

theorem State.runInstruction_of_illegal {s : State} {addr : Nat} (h : s.fetch = .illegal addr) :
    s.runInstruction = .next (s.raiseFault .addrFetch addr) := by
  simp only [State.runInstruction, h]

/-- Settles O10: the fetch of the consulted state finds no opcode, and fault entry is all that follows. -/
theorem fetchFaultIsEntered : Obligations.FetchFaultIsEntered := by
  intro s u now h hrun hg hpc
  have heq := h.governorConsult_eq
  have hpc' : (u.governorConsult now).2.pc = s.pc := by rw [heq]
  have hfetch := State.highPcFetchFaults (u.governorConsult now).2 (by rwa [hpc'])
  have haddr : max s.pc.toNat 0x1000 = if 0x1000 ≤ s.pc.toNat then s.pc.toNat else 0x1000 := lowestIllegal_of_highPc hpc
  rw [hpc', haddr] at hfetch
  refine ⟨_, (u.governorConsult now).2, ?_, State.raiseFault_entersFault _ .addrFetch ?_, rfl, heq⟩
  · rw [step_of_tickComes h, State.tick_of_granted (h.runState.trans hrun) hg, State.runInstruction_of_illegal hfetch]
  · rw [← haddr]
    exact max_lt s.pc.isLt (by decide)

/-! ### The granted tick and the poll -/

/-- Settles O7: the granted step executes what the opcode decodes to, here an instruction. -/
theorem stepRunsDecodedInstruction : Obligations.StepRunsDecodedInstruction := by
  intro s u now op i h hrun hg hf hd
  rw [h.step_of_granted hrun hg hf, hd]
  rfl

theorem State.tick_of_waitKey {s : State} (h : s.runState = .waitKey) (now : Millis) :
    s.tick now = .next s.pollKey := by
  simp [State.tick, h]

theorem State.pollKey_of_none {s : State} (h : s.keySlot = none) : s.pollKey = s := by
  obtain ⟨k, hk, -⟩ | ⟨-, heq⟩ := s.pollKey_cases
  · rw [h] at hk; cases hk
  · rw [heq, State.keyTake, ← h]

theorem State.pollKey_of_some {s : State} {k : Nibble} (h : s.keySlot = some k) :
    s.pollKey = (s.keyTake.2.deliverKey s.waitX k).resume.completeInstruction := by
  obtain ⟨k', hk, heq⟩ | ⟨hk, -⟩ := s.pollKey_cases <;> rw [h] at hk <;> cases hk
  exact heq

@[simp] theorem zextKey_toNat (k : Nibble) : (zextKey k).toNat = k.toNat :=
  BitVec.toNat_setWidth_of_le (by decide)

/-- A delivered key reaches V[x] and moves PC on by 2, and the rest stays (R198). -/
theorem State.deliverKey_effect (s : State) (x : Reg) (k : Nibble) :
    ((s.deliverKey x k).reg x).toNat = k.toNat ∧ (∀ r, r ≠ x → (s.deliverKey x k).reg r = s.reg r) ∧
      PcBy s (s.deliverKey x k) 2 ∧ OnlyRegsPc s (s.deliverKey x k) ∧ SameBytes s (s.deliverKey x k) :=
  ⟨(congrArg BitVec.toNat (s.resultOnly_reg_self x (zextKey k))).trans (zextKey_toNat k),
    s.resultOnly_frame x (zextKey k)⟩

/-- Settles O13: with no key the poll answers its own state, with one it delivers the key and completes the instruction. -/
theorem waitKeyPoll : Obligations.WaitKeyPoll := by
  intro s u now h hwait
  have heq := h.eq
  have hslot : u.keySlot = s.keySlot := by rw [heq]
  rw [step_of_tickComes h, State.tick_of_waitKey (h.runState.trans hwait)]
  refine ⟨fun hk => ?_, fun k hk => ⟨_, (u.keyTake.2.deliverKey u.waitX k).resume, ?_, rfl, ?_⟩⟩
  · rw [State.pollKey_of_none (hslot.trans hk), ← heq]
  · rw [State.pollKey_of_some (hslot.trans hk)]
  · rw [heq]
    obtain ⟨hself, hother, hpc, -⟩ :=
      (State.keyTake { s with hostQueue := u.hostQueue, hostClock := now }).2.deliverKey_effect s.waitX k
    exact ⟨hself, hother, hpc, rfl⟩

end Sys2Proof.Machine
end

section
/-! PROOFS. The governor (70_reset_and_hazards.md section 3): a consult in the library's operations, the first tokens of an empty
bucket, the bound on grants, and that no result depends on the governor's fields. -/

namespace Sys2Proof.Machine

/-! ### A consult (R261) -/

theorem State.governorConsult_granted_iff (s : State) (now : Millis) :
    (s.governorConsult now).1 = true ↔ 1 ≤ s.refilled now := by
  obtain ⟨hge, heq⟩ | ⟨hlt, heq⟩ := s.governorConsult_cases now <;> rw [heq]
  · exact iff_of_true rfl hge
  · exact iff_of_false nofun (not_le.2 hlt)

theorem State.governorConsult_snd (s : State) (now : Millis) :
    (s.governorConsult now).2 =
      s.setGovernor (if 1 ≤ s.refilled now then s.refilled now - 1 else s.refilled now) (max s.lastCheck now) := by
  obtain ⟨hge, heq⟩ | ⟨hlt, heq⟩ := s.governorConsult_cases now <;> rw [heq]
  · rw [if_pos hge]
  · rw [if_neg (not_le.2 hlt)]

/-- Settles O17: a consult's grant and its two fields, with the refill in the library's operations. -/
theorem governorConsultIsTokenBucket : Obligations.GovernorConsultIsTokenBucket := by
  intro s now refill
  have hrefill : s.refilled now = refill := s.refilled_eq now
  rw [← hrefill]
  exact ⟨s.governorConsult_granted_iff now, s.governorConsult_snd now⟩

/-! ### The first tokens (R264) -/

/-- A wait of `d` refills by `d` at the rate, up to the cap. -/
theorem State.refilled_after (s : State) {d : Rat} (hd : 0 ≤ d) :
    s.refilled (s.lastCheck + d) =
      min (s.params.govRate : Rat) (s.allowance + d * s.params.govRate / s.params.govPeriod.val) := by
  rw [State.refilled_eq, add_sub_cancel_left, max_eq_right hd]

/-- Settles O18: a wait d gives d * 14 / 100 tokens, and a second consult at the same time refills nothing. -/
theorem oneTokenAccruesInFiftySevenths : Obligations.OneTokenAccruesInFiftySevenths := by
  intro s d hrate hperiod hempty hd
  have hfirst : s.refilled (s.lastCheck + d) = min 14 (d * 14 / 100) := by
    rw [State.refilled_after s hd, hrate, hperiod, hempty, zero_add]
    norm_num
  refine ⟨?_, fun hone => ?_⟩
  · rw [State.governorConsult_granted_iff, hfirst, le_min_iff]
    constructor
    · rintro ⟨-, h⟩
      linarith
    · exact fun h => ⟨by norm_num, by linarith⟩
  · have hge : 1 ≤ min 14 (d * 14 / 100) := le_min (by norm_num) (by linarith)
    have hsecond : (s.governorConsult (s.lastCheck + d)).2.refilled (s.lastCheck + d) =
        min 14 (min 14 (d * 14 / 100) - 1) := by
      rw [State.governorConsult_snd, hfirst, if_pos hge, max_eq_right (by linarith), State.refilled_eq]
      simp [hrate]
    rw [State.governorConsult_granted_iff, hsecond, le_min_iff, le_sub_iff_add_le, le_min_iff]
    constructor
    · rintro ⟨-, -, h⟩
      linarith
    · exact fun h => ⟨by norm_num, by norm_num, by linarith⟩

/-! ### The bound on grants (R262) -/

/-- A consult and its grant spend no more than the allowance and the refill of the time that `last_check` moves on. -/
theorem State.governorConsult_spends (s : State) (now : Millis) :
    (if (s.governorConsult now).1 then 1 else 0) + (s.governorConsult now).2.allowance ≤
      s.allowance + ((s.governorConsult now).2.lastCheck - s.lastCheck) * (s.params.govRate : Rat) /
        (s.params.govPeriod.val : Rat) := by
  have hrefill : s.refilled now ≤ s.allowance + (max s.lastCheck now - s.lastCheck) * (s.params.govRate : Rat) /
      (s.params.govPeriod.val : Rat) := by
    have htime : max s.lastCheck now - s.lastCheck = max 0 (now - s.lastCheck) := by
      rw [← max_sub_sub_right, sub_self]
    rw [State.refilled_eq, htime]
    exact min_le_right _ _
  obtain ⟨-, heq⟩ | ⟨-, heq⟩ := s.governorConsult_cases now <;> rw [heq]
  · simpa using hrefill
  · simpa using hrefill

/-- The grants of consults up to `b` are at most the allowance and the refill of the time to `b`. -/
theorem grantsOver_le {b : Millis} (times : List Millis) (s : State) (hbounded : s.governorBounded)
    (hcheck : s.lastCheck ≤ b) (htimes : ∀ now ∈ times, now ≤ b) :
    (grantsOver s times : Rat) ≤
      s.allowance + (b - s.lastCheck) * (s.params.govRate : Rat) / (s.params.govPeriod.val : Rat) := by
  induction times generalizing s with
  | nil =>
    have hrefill : 0 ≤ (b - s.lastCheck) * (s.params.govRate : Rat) / (s.params.govPeriod.val : Rat) :=
      div_nonneg (mul_nonneg (sub_nonneg.2 hcheck) (Nat.cast_nonneg _)) (Nat.cast_nonneg _)
    exact add_nonneg hbounded.1 hrefill
  | cons now later ih =>
    obtain ⟨hnow, hlater⟩ := List.forall_mem_cons.1 htimes
    have hspends := s.governorConsult_spends now
    have hnext : (s.governorConsult now).2 = _ := s.governorConsult_snd now
    have hrest := ih _ (State.governorConsult_bounded hbounded now)
      (by rw [hnext]; exact max_le hcheck hnow) hlater
    have hparams : (s.governorConsult now).2.params = s.params := by rw [hnext, State.setGovernor_params]
    rw [hparams] at hrest
    simp only [grantsOver, Nat.cast_add, Nat.cast_ite, Nat.cast_one, Nat.cast_zero]
    calc _ ≤ _ := add_le_add_right hrest _
      _ = ((if (s.governorConsult now).1 then 1 else 0) + (s.governorConsult now).2.allowance) +
          (b - (s.governorConsult now).2.lastCheck) * (s.params.govRate : Rat) / (s.params.govPeriod.val : Rat) := by
        ring
      _ ≤ _ := add_le_add_left hspends _
      _ = _ := by ring

/-- Settles O19: the bound up to last_check + T, and a number of grants is an integer. -/
theorem grantsAreBounded : Obligations.GrantsAreBounded := by
  intro s T times hbounded hT htimes
  have hle := grantsOver_le times s hbounded (le_add_of_nonneg_right hT) htimes
  rw [add_sub_cancel_left] at hle
  exact Int.le_floor.2 (by exact_mod_cast hle)

/-! ### Noninterference (R263) -/

section
variable (s : State) (a : Rat) (c : Millis)

theorem State.readBytes_setGovernor (base n : Nat) : (s.setGovernor a c).readBytes base n = s.readBytes base n := by
  induction n generalizing base with
  | zero => rfl
  | succ n ih => exact congrArg (s.readByte base :: ·) (ih (base + 1))

theorem State.writeBytes_setGovernor (base : Nat) (ws : List Byte) :
    (s.setGovernor a c).writeBytes base ws = (s.writeBytes base ws).setGovernor a c := by
  induction ws generalizing s base with
  | nil => rfl
  | cons w ws ih => exact ih (s.writeByte base w) (base + 1)

theorem State.loadRegs_setGovernor (k : Nat) (ws : List Byte) :
    (s.setGovernor a c).loadRegs k ws = (s.loadRegs k ws).setGovernor a c := by
  induction ws generalizing s k with
  | nil => rfl
  | cons w ws ih => exact ih (s.setReg (Fin.ofNat 16 k) w) (k + 1)

theorem State.skipIf_setGovernor (b : Bool) : (s.setGovernor a c).skipIf b = (s.skipIf b).setGovernor a c := by
  cases b <;> rfl

/-- The bounds check reads no field of the governor. -/
theorem State.checkedAccess_setGovernor {t t' : State} (ht : t' = t.setGovernor a c) (code : FaultCode) (base len : Nat) :
    (s.setGovernor a c).checkedAccess code base len t' = (s.checkedAccess code base len t).setGovernor a c := by
  subst ht
  obtain ⟨hlegal, heq⟩ | ⟨hillegal, heq⟩ := s.checkedAccess_cases t code base len <;> rw [heq]
  · exact State.checkedAccess_of_legal hlegal
  · exact State.checkedAccess_of_illegal hillegal

theorem State.afterExecute_setGovernor :
    (s.setGovernor a c).afterExecute = s.afterExecute.setGovernor a c := by
  by_cases hrun : s.runState = .run
  · rw [State.afterExecute_of_run hrun, State.afterExecute_of_run (s := s.setGovernor a c) hrun,
      State.completeInstruction_eq, State.completeInstruction_eq]
    rfl
  · rw [State.afterExecute_of_ne_run hrun, State.afterExecute_of_ne_run (s := s.setGovernor a c) hrun]

theorem mapNext_afterExecute_setGovernor (r : Result) :
    mapNext State.afterExecute (mapNext (State.setGovernor · a c) r) =
      mapNext (State.setGovernor · a c) (mapNext State.afterExecute r) := by
  cases r with
  | next s => exact congrArg Host.Outcome.next (s.afterExecute_setGovernor a c)
  | fault | refused => rfl

/-- Every instruction reads and writes around the governor's fields. -/
theorem exec_setGovernor (i : Instr) :
    exec i (s.setGovernor a c) = mapNext (State.setGovernor · a c) (exec i s) := by
  cases i with
  | sys | jp | jpV0 | cls | ldI | addI | ldF | ldDtVx | ldStVx => rfl
  | ldImm | addImm | ldReg | orReg | andReg | xorReg | addReg | sub | shr | subn | shl | rnd | ldVxDt => rfl
  | seImm | sneImm | seReg | sneReg => exact congrArg Host.Outcome.next (s.skipIf_setGovernor a c _)
  | skp | sknp => exact congrArg Host.Outcome.next (s.keyTake.2.skipIf_setGovernor a c _)
  | ret =>
    obtain ⟨hpos, heq⟩ | ⟨hempty, heq⟩ := exec_ret_cases s <;> rw [heq]
    · exact exec_ret_of_pos (s := s.setGovernor a c) hpos
    · exact dif_neg (by simp [hempty])
  | call nnn =>
    obtain ⟨hlt, heq⟩ | ⟨hfull, heq⟩ := exec_call_cases nnn s <;> rw [heq]
    · exact exec_call_of_lt nnn (s := s.setGovernor a c) hlt
    · exact dif_neg (by simp [hfull])
  | ldVxK x =>
    obtain ⟨k, hk, heq⟩ | ⟨hk, heq⟩ := exec_ldVxK_cases x s <;> rw [heq]
    · obtain ⟨k', hk', heq'⟩ | ⟨hk', -⟩ := exec_ldVxK_cases x (s.setGovernor a c)
      · cases hk.symm.trans hk'
        exact heq'
      · cases hk.symm.trans hk'
    · obtain ⟨k', hk', -⟩ | ⟨-, heq'⟩ := exec_ldVxK_cases x (s.setGovernor a c)
      · cases hk.symm.trans hk'
      · exact heq'
  | ldB | ldMemVx =>
    exact congrArg Host.Outcome.next (s.checkedAccess_setGovernor a c (by rw [State.writeBytes_setGovernor]; rfl) _ _ _)
  | ldVxMem =>
    exact congrArg Host.Outcome.next (s.checkedAccess_setGovernor a c
      (by rw [State.readBytes_setGovernor, State.loadRegs_setGovernor]; rfl) _ _ _)
  | drw =>
    exact congrArg Host.Outcome.next (s.checkedAccess_setGovernor a c (by rw [State.readBytes_setGovernor]; rfl) _ _ _)

theorem execDecoded_setGovernor (d : Decoded) :
    execDecoded d (s.setGovernor a c) = mapNext (State.setGovernor · a c) (execDecoded d s) := by
  cases d with
  | instr i => exact exec_setGovernor s a c i
  | undefined => rfl

/-- The fetch, the decoder, the instruction and its completion never read the governor's fields. -/
theorem State.runInstruction_setGovernor :
    (s.setGovernor a c).runInstruction = mapNext (State.setGovernor · a c) s.runInstruction := by
  have hfetch : (s.setGovernor a c).fetch = s.fetch := State.fetch_congr rfl rfl rfl
  cases hf : s.fetch with
  | illegal addr =>
    rw [State.runInstruction_of_illegal hf, State.runInstruction_of_illegal (hfetch.trans hf)]
    rfl
  | opcode op =>
    rw [State.runInstruction_of_fetch hf, State.runInstruction_of_fetch (hfetch.trans hf), execDecoded_setGovernor,
      mapNext_afterExecute_setGovernor, State.setGovernor_params]

end

/-- Settles O20: a granted instruction and exec commute with a write of the governor's fields. -/
theorem governorNeverReachesResults : Obligations.GovernorNeverReachesResults :=
  ⟨State.runInstruction_setGovernor, fun i s a c => exec_setGovernor s a c i⟩

end Sys2Proof.Machine
end

section
/-! PROOFS. The completion of an instruction (40_fetch_cycle.md section 5, 60_exceptions.md section 3): one completion, and the delay
timer after many. -/

namespace Sys2Proof.Machine

/-- Settles O14: the completion's own equation, by whether the counter comes to 0. -/
theorem completionCountsModDivider : Obligations.CompletionCountsModDivider := by
  intro s
  rw [State.completeInstruction_eq]
  refine ⟨rfl, fun hzero => ?_, fun hne => ?_⟩
  · have htc : s.bumpCadence.tc = 0 := hzero
    simp only [htc, ↓reduceIte]
    rfl
  · have htc : s.bumpCadence.tc ≠ 0 := hne
    simp only [htc, ↓reduceIte]

theorem State.completeInstruction_tc (s : State) :
    s.completeInstruction.tc = (s.tc + 1) % s.params.timerDivider.val := by
  rw [State.completeInstruction_eq, State.bumpCadence_tc]

theorem State.completeInstruction_params (s : State) : s.completeInstruction.params = s.params := by
  rw [State.completeInstruction_eq]

theorem State.completeInstruction_dt_toNat (s : State) :
    s.completeInstruction.dt.toNat = s.dt.toNat - if (s.tc + 1) % s.params.timerDivider.val = 0 then 1 else 0 := by
  rw [State.completeInstruction_eq]
  show (if (s.tc + 1) % s.params.timerDivider.val = 0 then countDown s.dt else s.dt).toNat = _
  split
  · exact countDown_toNat s.dt
  · rfl

/-- After n completions the counter has gone n steps round, and DT has lost one for each wrap. -/
theorem State.completeInstruction_iterate (s : State) (hcad : s.cadenceInRange) (n : Nat) :
    (State.completeInstruction^[n] s).params = s.params ∧
      (State.completeInstruction^[n] s).tc = (s.tc + n) % s.params.timerDivider.val ∧
      (State.completeInstruction^[n] s).dt.toNat = s.dt.toNat - (s.tc + n) / s.params.timerDivider.val := by
  induction n with
  | zero =>
    have hlt : s.tc < s.params.timerDivider.val := hcad
    exact ⟨rfl, (Nat.mod_eq_of_lt hlt).symm, by simp [Nat.div_eq_of_lt hlt]⟩
  | succ n ih =>
    obtain ⟨hparams, htc, hdt⟩ := ih
    rw [Function.iterate_succ_apply']
    refine ⟨(State.completeInstruction_params _).trans hparams, ?_, ?_⟩
    · rw [State.completeInstruction_tc, hparams, htc, Nat.mod_add_mod, Nat.add_assoc]
    · rw [State.completeInstruction_dt_toNat, hparams, htc, hdt, Nat.mod_add_mod, Nat.sub_sub, ← Nat.add_assoc,
        Nat.succ_div]
      simp only [Nat.dvd_iff_mod_eq_zero]

/-- Settles O16: the closed form, and its two bounds by the size of the quotient. -/
theorem delayTimerAfterCompletions : Obligations.DelayTimerAfterCompletions := by
  intro s n hcad
  have hlt : s.tc < s.params.timerDivider.val := hcad
  have hpos := s.params.timerDivider.property
  obtain ⟨-, htc, hdt⟩ := s.completeInstruction_iterate hcad n
  refine ⟨hdt, htc, fun hd hn h0 => ?_, fun hn => BitVec.eq_of_toNat_eq ?_⟩
  · have hquot : (s.tc + n) / s.params.timerDivider.val < s.dt.toNat := by
      rw [Nat.div_lt_iff_lt_mul hpos]
      calc s.tc + n < s.params.timerDivider.val + s.params.timerDivider.val * (s.dt.toNat - 1) := by omega
        _ = (s.dt.toNat - 1 + 1) * s.params.timerDivider.val := by ring
        _ = s.dt.toNat * s.params.timerDivider.val := by rw [Nat.sub_add_cancel hd]
    rw [h0] at hdt
    have : (0 : Byte).toNat = 0 := rfl
    omega
  · have hquot : s.dt.toNat ≤ (s.tc + n) / s.params.timerDivider.val := by
      rw [Nat.le_div_iff_mul_le hpos, Nat.mul_comm]
      omega
    exact hdt.trans (Nat.sub_eq_zero_of_le hquot)

end Sys2Proof.Machine
end

section
/-! PROOFS. The host's moves (70_reset_and_hazards.md sections 1 and 2, 60_exceptions.md section 4): the values of a reset, the ROM
load and the key press. -/

namespace Sys2Proof.Machine

/-- After a reset memory reads as the reset contents. -/
theorem State.hostReset_readByte (s : State) (now : Millis) (a : Nat) :
    (s.hostReset now).readByte a = resetByte s.params a := rfl

theorem resetByte_of_lt (p : Params) {a : Nat} (h : a < 80) : resetByte p a = p.font[a] := dif_pos h

theorem resetByte_of_ge (p : Params) {a : Nat} (h : 80 ≤ a) : resetByte p a = 0 := dif_neg (Nat.not_lt.2 h)

/-- Settles O21: the fields of the reset state, the vectors and memory by what a read of them answers. -/
theorem hostResetValues : Obligations.HostResetValues := by
  intro s now q hq
  refine ⟨(s.setHostQueue q).hostReset now, step_of_queued hq, fun r => Vector.getElem_replicate r.isLt, rfl, rfl, rfl,
    fun k => Vector.getElem_replicate k.isLt, rfl, rfl, rfl, getElem_clearDisplay, fun a ha => ?_, fun a ha _ => ?_,
    ratNat_eq _, rfl, rfl, rfl, rfl, rfl, rfl, rfl, rfl, rfl⟩
  · exact (State.hostReset_readByte _ now a).trans (resetByte_of_lt _ ha)
  · exact (State.hostReset_readByte _ now a).trans (resetByte_of_ge _ ha)

theorem State.hostLoadRom_of_le {s : State} {bytes : List Byte} (hidle : s.runState = .idle)
    (hlen : bytes.length ≤ Config.maxRom) :
    s.hostLoadRom bytes = (s.writeBytes Config.romBase bytes).endLoad .run false := by
  obtain ⟨hne, -⟩ | ⟨-, hgt, -⟩ | ⟨-, -, heq⟩ := s.hostLoadRom_cases bytes
  · exact absurd hidle hne
  · exact absurd hlen (Nat.not_le.2 hgt)
  · exact heq

theorem State.hostLoadRom_of_gt {s : State} {bytes : List Byte} (hidle : s.runState = .idle)
    (hlen : Config.maxRom < bytes.length) : s.hostLoadRom bytes = s.endLoad .idle true := by
  obtain ⟨hne, -⟩ | ⟨-, -, heq⟩ | ⟨-, hle, -⟩ := s.hostLoadRom_cases bytes
  · exact absurd hidle hne
  · exact heq
  · exact absurd hle (Nat.not_le.2 hlen)

/-- Settles O23: the copy is a store at 0x200, the refusal a report, and elsewhere the load is ignored. -/
theorem romLoadCopiesOrIsRefused : Obligations.RomLoadCopiesOrIsRefused := by
  intro s bytes q hq hwf
  have hstep : step s = .next ((s.setHostQueue q).hostLoadRom bytes) := step_of_queued hq
  have hwf' : (s.setHostQueue q).memWf := hwf
  rw [hstep]
  refine ⟨fun hidle hlen => ⟨_, rfl, ?_⟩, fun hidle hlen => ?_, fun hne => ?_⟩
  · have hin : Config.romBase + bytes.length ≤ Config.memSize := by
      show 0x200 + bytes.length ≤ 4096
      omega
    rw [State.hostLoadRom_of_le (s := s.setHostQueue q) hidle hlen]
    refine ⟨fun j hj => ?_, fun a ha => ?_, ?_⟩
    · exact State.readByte_writeBytes_of_getElem? hwf' hin (List.getElem?_eq_getElem hj)
    · exact State.readByte_writeBytes_outside hwf' hin ha
    · rw [State.writeBytes_eq_setMem]
      rfl
  · rw [State.hostLoadRom_of_gt (s := s.setHostQueue q) hidle hlen, ← hidle]
    rfl
  · rw [State.hostLoadRom_of_ne_idle (s := s.setHostQueue q) hne]
    rfl

/-- Settles O24: the step is the press, on the state whose queue has moved on. -/
theorem keyPressOverwritesSlot : Obligations.KeyPressOverwritesSlot :=
  fun _ _ _ hq => step_of_queued hq

end Sys2Proof.Machine
end

section
/-! PROOFS. The instructions left, each by what its operation writes and leaves: SYS, CALL then RET, ADD Vx,Vy, RND, ADD I,Vx,
LD [I],Vx, DRW, LD Vx,K and LD ST,Vx (41_control_flow.md to 45_input_timers.md). -/

namespace Sys2Proof.Machine

/-! ### Control transfer -/

/-- Settles O32: group 0 without the two words of CLS and RET, and a write of PC. -/
theorem sysIsIgnored : Obligations.SysIsIgnored :=
  ⟨fun _ _ => decode_sys, fun _ s => ⟨_, rfl, s.advance_pcBy, rfl, .of_mem_eq rfl rfl⟩⟩

/-- Settles O35: the pop undoes the push from any PC. -/
theorem callThenRetReturns : Obligations.CallThenRetReturns := by
  refine fun nnn s h => ⟨_, exec_call_of_lt nnn h, fun p => ?_⟩
  have hret : exec .ret ((s.pushPc h).setPc p) = .next _ := exec_ret_of_pos (Nat.succ_pos _)
  rw [State.popPc_setPc_pushPc] at hret
  exact ⟨_, hret, BitVec.toNat_add s.pc 2, rfl, rfl⟩

/-! ### Registers and the generator -/

theorem carryFlag_toNat (a b : Byte) :
    (carryFlag a b).toNat = if 256 ≤ a.toNat + b.toNat then 1 else 0 := by
  simp [carryFlag, Nat.lt_iff_add_one_le]

/-- Settles O42: the wrapped sum and the carry of the exact sum are a result with a flag. -/
theorem addSetsCarry : Obligations.AddSetsCarry := by
  refine ⟨fun _ _ => decode_addReg, fun x y s => ?_⟩
  obtain ⟨hres, hflag⟩ :=
    s.resultWithFlag_toNat x (BitVec.toNat_add (s.reg x) (s.reg y)) (carryFlag_toNat (s.reg x) (s.reg y))
  exact ⟨_, rfl, hres, hflag, s.resultWithFlag_frame x _ _⟩

/-- Settles O45: the masked byte is a result without a flag on the state whose generator has moved on. -/
theorem rndDrawsOnceUnderMask : Obligations.RndDrawsOnceUnderMask := by
  refine ⟨fun _ _ => decode_rnd, fun x kk s => ?_⟩
  obtain ⟨hother, hpc, honly, hbytes⟩ := s.rngDraw.2.resultOnly_frame x (s.rngDraw.1 &&& kk)
  have hself := s.rngDraw.2.resultOnly_reg_self x (s.rngDraw.1 &&& kk)
  refine ⟨_, rfl, fun b => ?_, fun hkk => ?_, rfl, hother, hpc, honly, hbytes⟩
  · rw [hself, BitVec.getLsbD_and, State.rngDraw_fst]
  · rw [hself, hkk]
    exact BitVec.and_zero

/-! ### The index register and memory -/

/-- Settles O47: a write of I by the sum, which wraps as a 16-bit sum does. -/
theorem addIWrapsAt65536 : Obligations.AddIWrapsAt65536 := by
  refine ⟨fun _ _ => decode_addI, fun x s => ⟨_, rfl, ?_, s.setI_advance_frame _⟩⟩
  exact (BitVec.toNat_add s.i _).trans (by rw [zextByte_toNat])

/-- Settles O49: V[0] to V[x] are stored at I to I + x when those are in memory, else the store faults. -/
theorem storeRegistersAtI : Obligations.StoreRegistersAtI := by
  refine ⟨fun _ _ => decode_ldMemVx, fun x s hwf => ⟨_, rfl, ?_⟩⟩
  obtain ⟨hlt, heq⟩ | ⟨hge, hfault⟩ :=
    s.checkedAccess_base_cases (s.writeBytes s.base (s.regsUpTo x)).advance .addrWrite x.val
  · rw [if_pos hlt, heq]
    have hlen := s.regsUpTo_length x
    have hin : s.base + (s.regsUpTo x).length ≤ Config.memSize := by rw [hlen]; exact hlt
    refine ⟨fun k hk => ?_, fun a ha => ?_, s.writeBytes_advance_frame _ _⟩
    · exact State.readByte_writeBytes_of_getElem? hwf hin ((s.getElem?_regsUpTo x k.val).trans (dif_pos hk))
    · exact State.readByte_writeBytes_outside hwf hin (ha.imp_right fun h => by rw [hlen]; exact h)
  · rw [if_neg hge]
    exact hfault

/-! ### Drawing (R182 to R185) -/

/-- The sprite read from I covers what its rows cover. -/
theorem rowsCover_readBytes (s : State) (ox oy n : Nat) (c : Fin 64) (r : Fin 32) :
    rowsCover ox oy (s.readBytes s.base n) c r = spriteCovers s ox oy n c r := by
  unfold rowsCover spriteCovers
  rw [State.getElem?_readBytes]
  by_cases hrow : oy ≤ r.val
  · by_cases hn : r.val - oy < n
    · have hlt : r.val < oy + n := by omega
      simp only [hrow, hn, hlt, ↓reduceIte, columnsCover, spriteBit, State.base, decide_true, Bool.true_and, Bool.and_true,
        Nat.add_zero]
    · have hge : ¬ r.val < oy + n := by omega
      simp [hrow, hn, hge]
  · simp [hrow]

/-- The buffer and VF after a draw, and what it leaves. -/
theorem State.finishDraw_frame (s : State) (drawn : Display × Bool) :
    (∀ c r, (s.finishDraw drawn).pixel c r = drawn.1[c][r]) ∧
      (s.finishDraw drawn).reg regVF = flagByte drawn.2 ∧
      (∀ r, r ≠ regVF → (s.finishDraw drawn).reg r = s.reg r) ∧ PcBy s (s.finishDraw drawn) 2 ∧
      s.finishDraw drawn =
        { s with
          v := (s.finishDraw drawn).v, disp := (s.finishDraw drawn).disp, pc := (s.finishDraw drawn).pc } ∧
      SameBytes s (s.finishDraw drawn) := by
  obtain ⟨hother, hpc, -, hbytes⟩ := (s.setDisp drawn.1).resultOnly_frame regVF (flagByte drawn.2)
  exact ⟨fun _ _ => rfl, (s.setDisp drawn.1).resultOnly_reg_self regVF _, hother, hpc, rfl, hbytes⟩

/-- The collision flag of a draw is set exactly when the sprite covers a pixel that was on (R185). -/
theorem State.drawRows_collision_iff (s : State) (ox oy n : Nat) :
    (drawRows ox oy (s.readBytes s.base n) (s.disp, false)).2 = true ↔
      ∃ c r, spriteCovers s ox oy n c r = true ∧ s.pixel c r = true := by
  rw [drawRows_collision]
  simp only [rowsCover_readBytes, Bool.false_eq_true, false_or]
  rfl

/-- The bounds check of a sprite of n rows, with n = 0 among the legal ones (R182, decision D10). -/
theorem State.checkedAccess_sprite_cases (s t : State) (n : Nat) :
    ((n = 0 ∨ s.i.toNat + n ≤ 4096) ∧ s.checkedAccess .addrRead s.base n t = t) ∨
      (¬ (n = 0 ∨ s.i.toNat + n ≤ 4096) ∧
        EntersFault s (s.checkedAccess .addrRead s.base n t) .addrRead (max s.i.toNat 4096)) := by
  have hlegal : rangeLegal s.base n = true ↔ n = 0 ∨ s.i.toNat + n ≤ 4096 := rangeLegal_iff _ _
  obtain ⟨hr, heq⟩ | ⟨hr, heq⟩ := s.checkedAccess_cases t .addrRead s.base n
  · exact .inl ⟨hlegal.1 hr, heq⟩
  · refine .inr ⟨fun h => by simp [hlegal.2 h] at hr, ?_⟩
    rw [heq]
    exact s.raiseFault_entersFault .addrRead (lowestIllegal_bounds s.i).2

/-- Settles O53: the rows XOR the sprite into the buffer, VF takes the collision, and an illegal row faults. -/
theorem drwXorsSprite : Obligations.DrwXorsSprite := by
  refine ⟨fun _ _ => decode_drw, fun x y n s => ⟨_, rfl, ?_⟩⟩
  obtain ⟨hin, heq⟩ | ⟨hout, hfault⟩ := s.checkedAccess_sprite_cases
    (s.finishDraw (drawRows (s.reg x).toNat (s.reg y).toNat (s.readBytes s.base n.toNat) (s.disp, false))) n.toNat
  · rw [if_pos hin, heq]
    obtain ⟨hpixel, hvf, hframe⟩ := s.finishDraw_frame
      (drawRows (s.reg x).toNat (s.reg y).toNat (s.readBytes s.base n.toNat) (s.disp, false))
    have hcoll := s.drawRows_collision_iff (s.reg x).toNat (s.reg y).toNat n.toNat
    refine ⟨fun c r => ?_, fun hon => ?_, fun hoff => ?_, hframe⟩
    · rw [hpixel, getElem_drawRows, rowsCover_readBytes]
      rfl
    · exact hvf.trans (by rw [hcoll.2 hon]; rfl)
    · have hnone : ¬ ∃ c r, spriteCovers s (s.reg x).toNat (s.reg y).toNat n.toNat c r = true ∧ s.pixel c r = true := by
        rintro ⟨c, r, hcov, hon⟩
        rw [hoff c r hcov] at hon
        cases hon
      exact hvf.trans (by rw [Bool.eq_false_iff.2 (mt hcoll.1 hnone)]; rfl)
  · rw [if_neg hout]
    exact hfault

/-! ### Key input and the sound timer -/

/-- Settles O55: the key of the slot is delivered, or the wait begins. -/
theorem keyLoadTakesOrWaits : Obligations.KeyLoadTakesOrWaits := by
  refine ⟨fun _ _ => decode_ldVxK, fun x s => ⟨fun k hk => ?_, fun hk => ?_⟩⟩
  · obtain ⟨k', hk', heq⟩ | ⟨hk', -⟩ := exec_ldVxK_cases x s <;> cases hk.symm.trans hk'
    obtain ⟨hself, hother, hpc, honly, hbytes⟩ := s.keyTake.2.deliverKey_effect x k
    exact ⟨_, heq, hself, hother, hpc, honly, hbytes⟩
  · obtain ⟨k', hk', -⟩ | ⟨-, heq⟩ := exec_ldVxK_cases x s
    · cases hk.symm.trans hk'
    · rw [heq, State.beginWait, State.keyTake, ← hk]

/-- A write of ST leaves all but ST and PC, which moves on by 2. -/
theorem State.setSt_advance_frame (s : State) (w : Byte) :
    PcBy s (s.setSt w).advance 2 ∧
      (s.setSt w).advance = { s with st := (s.setSt w).advance.st, pc := (s.setSt w).advance.pc } ∧
      SameBytes s (s.setSt w).advance :=
  ⟨s.advance_pcBy, rfl, .of_mem_eq rfl rfl⟩

/-- At a wrap of the cadence counter the completion sets `playing` by the sound timer it has counted down. -/
theorem State.completeInstruction_playing_of_wrap {s : State} (h : (s.tc + 1) % s.params.timerDivider.val = 0) :
    s.completeInstruction.playing = decide (0 < (countDown s.st).toNat) := by
  rw [State.completeInstruction_eq]
  exact if_pos h

/-- Settles O57: a write of ST, and a loaded 1 is 0 at the timer event that follows. -/
theorem soundTimerLoadSignalsNothing : Obligations.SoundTimerLoadSignalsNothing := by
  refine ⟨fun _ _ => decode_ldStVx, fun x s => ?_⟩
  obtain ⟨hpc, hframe, hbytes⟩ := s.setSt_advance_frame (s.reg x)
  refine ⟨_, rfl, rfl, rfl, hpc, hframe, hbytes, fun hwrap hone => ?_⟩
  have hplaying : (s.setSt (s.reg x)).advance.completeInstruction.playing = decide (0 < (countDown (s.reg x)).toNat) :=
    State.completeInstruction_playing_of_wrap hwrap
  rw [hplaying, hone]
  rfl

end Sys2Proof.Machine
end
